-- ==== Sys2Proof/Word.lean ====
section
/-! DEFINITION. The widths the machine works at (00_scope.md R7, R9, R81). -/

namespace Sys2Proof

/-- A general register, a timer or a memory byte (R7 `XLEN`, `TLEN`). -/
abbrev Byte := BitVec 8

/-- An instruction word, `I`, `PC` or a stack entry (R7 `ILEN`, `PCLEN`; R27). -/
abbrev Word := BitVec 16

/-- A 4-bit field of an instruction word: `X`, `Y` or `N` (R81). -/
abbrev Nibble := BitVec 4

/-- The 12-bit immediate `NNN` (R81). -/
abbrev Addr := BitVec 12

/-- A key index `0x0` to `0xF` (R34). -/
abbrev Key := Fin 16

/-- A font table, the type of the parameter `FONT`: 16 glyphs of 5 bytes (R7 `FONT_LEN`, R8, R31). -/
abbrev Font := Vector Byte 80

/-- One row of the display, 64 one-bit pixels (R32); column 0, the leftmost, is the most significant bit
(DESIGN CHOICE, log 10, safe: how the grid is held, invisible through `State.pixel`). -/
abbrev DispRow := BitVec 64

end Sys2Proof
end

