-- ==== Sys2Proof/Syntax.lean ====
section
/-! DEFINITION. The 35 instructions of the opcode map, 30_encoding.md R86, one constructor per row and in its
order; each carries every field of its word, the ignored `Y` of the two shifts (R91) among them. -/

namespace Sys2Proof

/-- An instruction. The hex pattern is its normative name (R92). -/
inductive Instr where
  /-- `00E0`: clear the display (R190). -/
  | cls
  /-- `00EE`: return from subroutine (R120). -/
  | ret
  /-- `0NNN` other than the two above: machine routine, always a fatal error (R121). -/
  | sys (nnn : Addr)
  /-- `1NNN`: jump (R122). -/
  | jp (nnn : Addr)
  /-- `2NNN`: call (R123). -/
  | call (nnn : Addr)
  /-- `3XNN`: skip if `VX = NN` (R125). -/
  | seImm (x : Nibble) (nn : Byte)
  /-- `4XNN`: skip if `VX != NN` (R126). -/
  | sneImm (x : Nibble) (nn : Byte)
  /-- `5XY0`: skip if `VX = VY` (R127). -/
  | seReg (x y : Nibble)
  /-- `6XNN`: load immediate (R141). -/
  | ldImm (x : Nibble) (nn : Byte)
  /-- `7XNN`: add immediate, no flag (R142). -/
  | addImm (x : Nibble) (nn : Byte)
  /-- `8XY0`: assign (R143). -/
  | ldReg (x y : Nibble)
  /-- `8XY1`: OR (R144). -/
  | orReg (x y : Nibble)
  /-- `8XY2`: AND (R145). -/
  | andReg (x y : Nibble)
  /-- `8XY3`: XOR (R146). -/
  | xorReg (x y : Nibble)
  /-- `8XY4`: add, `VF` carry (R147). -/
  | addReg (x y : Nibble)
  /-- `8XY5`: subtract, `VF` no borrow (R148). -/
  | subReg (x y : Nibble)
  /-- `8XY6`: shift `VX` right; `Y` is ignored (R149, R91). -/
  | shrReg (x y : Nibble)
  /-- `8XY7`: reverse subtract, `VF` no borrow (R150). -/
  | subnReg (x y : Nibble)
  /-- `8XYE`: shift `VX` left; `Y` is ignored (R151, R91). -/
  | shlReg (x y : Nibble)
  /-- `9XY0`: skip if `VX != VY` (R128). -/
  | sneReg (x y : Nibble)
  /-- `ANNN`: load index (R170). -/
  | ldI (nnn : Addr)
  /-- `BNNN`: jump to `V0 + NNN` (R124). -/
  | jpV0 (nnn : Addr)
  /-- `CXNN`: masked random byte (R217). -/
  | rnd (x : Nibble) (nn : Byte)
  /-- `DXYN`: draw a sprite (R193). -/
  | drw (x y n : Nibble)
  /-- `EX9E`: skip if key `VX` is pressed (R210). -/
  | skp (x : Nibble)
  /-- `EXA1`: skip if key `VX` is released (R211). -/
  | sknp (x : Nibble)
  /-- `FX07`: read the delay timer (R214). -/
  | ldVxDt (x : Nibble)
  /-- `FX0A`: wait for a key (R212). -/
  | ldVxK (x : Nibble)
  /-- `FX15`: set the delay timer (R215). -/
  | ldDtVx (x : Nibble)
  /-- `FX18`: set the sound timer (R216). -/
  | ldStVx (x : Nibble)
  /-- `FX1E`: add `VX` to `I` (R171). -/
  | addI (x : Nibble)
  /-- `FX29`: point `I` at a font glyph (R172). -/
  | ldF (x : Nibble)
  /-- `FX33`: store the decimal digits of `VX` (R173). -/
  | ldB (x : Nibble)
  /-- `FX55`: store `V0` to `VX` (R174). -/
  | stRegs (x : Nibble)
  /-- `FX65`: load `V0` to `VX` (R175). -/
  | ldRegs (x : Nibble)
  deriving DecidableEq, Repr

end Sys2Proof
end

