-- ==== Sys2Proof/Decode.lean ====
section
/-! DEFINITION. Decoding (30_encoding.md R80 to R91), the encoder, and the opcode map R86 as a table. -/

namespace Sys2Proof

/-- Why a word or a byte sequence is no instruction. -/
inductive DecodeError where
  /-- The word matches no row of the opcode map (R88). A `STEP` that fetches it raises `UnrecognizedOpcode`. -/
  | unrecognizedOpcode
  /-- Fewer than the two bytes every instruction has (R80); never met by a `STEP`, whose fetch reads two bytes. -/
  | tooFewBytes
  deriving DecidableEq, Repr

/-! The fields of an instruction word (R81). -/

def fieldC (op : Word) : Nibble := op.extractLsb' 12 4
def fieldX (op : Word) : Nibble := op.extractLsb' 8 4
def fieldY (op : Word) : Nibble := op.extractLsb' 4 4
def fieldN (op : Word) : Nibble := op.extractLsb' 0 4
def fieldNN (op : Word) : Byte := op.extractLsb' 0 8
def fieldNNN (op : Word) : Addr := op.extractLsb' 0 12

/-- The instruction word of two bytes in fetch order, high byte first (R63). -/
def wordOfBytes (hi lo : Byte) : Word := hi ++ lo

/-- The byte stored at the lower address (R63). -/
def hiByte (op : Word) : Byte := op.extractLsb' 8 8

/-- The byte stored at the higher address (R63). -/
def loByte (op : Word) : Byte := op.extractLsb' 0 8

/-- Class 0 (R84, R85): the two exact words first, then `0NNN`, whose meaning raises
`UnsupportedMachineRoutine` (R89, R121). -/
def decodeClass0 (op : Word) : Instr :=
  if op = 0x00E0#16 then .cls
  else if op = 0x00EE#16 then .ret
  else .sys (fieldNNN op)

/-- Class 8 (R84, R87): the low nibble selects the operation. -/
def decodeClass8 (op : Word) : Except DecodeError Instr :=
  let x := fieldX op
  let y := fieldY op
  match (fieldN op).toNat with
  | 0x0 => .ok (.ldReg x y)
  | 0x1 => .ok (.orReg x y)
  | 0x2 => .ok (.andReg x y)
  | 0x3 => .ok (.xorReg x y)
  | 0x4 => .ok (.addReg x y)
  | 0x5 => .ok (.subReg x y)
  | 0x6 => .ok (.shrReg x y)
  | 0x7 => .ok (.subnReg x y)
  | 0xE => .ok (.shlReg x y)
  | _ => .error .unrecognizedOpcode

/-- Class E (R84): the low byte selects the instruction. -/
def decodeClassE (op : Word) : Except DecodeError Instr :=
  match (fieldNN op).toNat with
  | 0x9E => .ok (.skp (fieldX op))
  | 0xA1 => .ok (.sknp (fieldX op))
  | _ => .error .unrecognizedOpcode

/-- Class F (R84): the low byte selects the instruction. -/
def decodeClassF (op : Word) : Except DecodeError Instr :=
  let x := fieldX op
  match (fieldNN op).toNat with
  | 0x07 => .ok (.ldVxDt x)
  | 0x0A => .ok (.ldVxK x)
  | 0x15 => .ok (.ldDtVx x)
  | 0x18 => .ok (.ldStVx x)
  | 0x1E => .ok (.addI x)
  | 0x29 => .ok (.ldF x)
  | 0x33 => .ok (.ldB x)
  | 0x55 => .ok (.stRegs x)
  | 0x65 => .ok (.ldRegs x)
  | _ => .error .unrecognizedOpcode

/-- Decoding a word (R84): the primary opcode class first. The last arm is class F, the only one left. -/
def decode (op : Word) : Except DecodeError Instr :=
  match (fieldC op).toNat with
  | 0x0 => .ok (decodeClass0 op)
  | 0x1 => .ok (.jp (fieldNNN op))
  | 0x2 => .ok (.call (fieldNNN op))
  | 0x3 => .ok (.seImm (fieldX op) (fieldNN op))
  | 0x4 => .ok (.sneImm (fieldX op) (fieldNN op))
  | 0x5 => if fieldN op = 0 then .ok (.seReg (fieldX op) (fieldY op)) else .error .unrecognizedOpcode
  | 0x6 => .ok (.ldImm (fieldX op) (fieldNN op))
  | 0x7 => .ok (.addImm (fieldX op) (fieldNN op))
  | 0x8 => decodeClass8 op
  | 0x9 => if fieldN op = 0 then .ok (.sneReg (fieldX op) (fieldY op)) else .error .unrecognizedOpcode
  | 0xA => .ok (.ldI (fieldNNN op))
  | 0xB => .ok (.jpV0 (fieldNNN op))
  | 0xC => .ok (.rnd (fieldX op) (fieldNN op))
  | 0xD => .ok (.drw (fieldX op) (fieldY op) (fieldN op))
  | 0xE => decodeClassE op
  | _ => decodeClassF op

/-- Decoding bytes in address order: two bytes are one instruction, the rest follows it (R80). -/
def decodeBytes : List Byte → Except DecodeError (Instr × List Byte)
  | hi :: lo :: rest => (decode (wordOfBytes hi lo)).map fun i => (i, rest)
  | _ => .error .tooFewBytes

/-! The encoder, from the formats of R82. -/

def encodeAddr (c : Nibble) (nnn : Addr) : Word := c ++ nnn
def encodeRegImm (c x : Nibble) (nn : Byte) : Word := c ++ x ++ nn
def encodeRegReg (c x y n : Nibble) : Word := c ++ x ++ y ++ n

/-- The word of an instruction (R82, R86). -/
def encode : Instr → Word
  | .cls => 0x00E0#16
  | .ret => 0x00EE#16
  | .sys nnn => encodeAddr 0x0 nnn
  | .jp nnn => encodeAddr 0x1 nnn
  | .call nnn => encodeAddr 0x2 nnn
  | .seImm x nn => encodeRegImm 0x3 x nn
  | .sneImm x nn => encodeRegImm 0x4 x nn
  | .seReg x y => encodeRegReg 0x5 x y 0x0
  | .ldImm x nn => encodeRegImm 0x6 x nn
  | .addImm x nn => encodeRegImm 0x7 x nn
  | .ldReg x y => encodeRegReg 0x8 x y 0x0
  | .orReg x y => encodeRegReg 0x8 x y 0x1
  | .andReg x y => encodeRegReg 0x8 x y 0x2
  | .xorReg x y => encodeRegReg 0x8 x y 0x3
  | .addReg x y => encodeRegReg 0x8 x y 0x4
  | .subReg x y => encodeRegReg 0x8 x y 0x5
  | .shrReg x y => encodeRegReg 0x8 x y 0x6
  | .subnReg x y => encodeRegReg 0x8 x y 0x7
  | .shlReg x y => encodeRegReg 0x8 x y 0xE
  | .sneReg x y => encodeRegReg 0x9 x y 0x0
  | .ldI nnn => encodeAddr 0xA nnn
  | .jpV0 nnn => encodeAddr 0xB nnn
  | .rnd x nn => encodeRegImm 0xC x nn
  | .drw x y n => encodeRegReg 0xD x y n
  | .skp x => encodeRegImm 0xE x 0x9E
  | .sknp x => encodeRegImm 0xE x 0xA1
  | .ldVxDt x => encodeRegImm 0xF x 0x07
  | .ldVxK x => encodeRegImm 0xF x 0x0A
  | .ldDtVx x => encodeRegImm 0xF x 0x15
  | .ldStVx x => encodeRegImm 0xF x 0x18
  | .addI x => encodeRegImm 0xF x 0x1E
  | .ldF x => encodeRegImm 0xF x 0x29
  | .ldB x => encodeRegImm 0xF x 0x33
  | .stRegs x => encodeRegImm 0xF x 0x55
  | .ldRegs x => encodeRegImm 0xF x 0x65

/-! The opcode map as R86 prints it. The decoder above does not use it: the two are transcribed apart, and the
laws say that they agree. -/

/-- One row of R86: a word `op` belongs to it when `op & mask = value`. -/
structure OpcodeRow where
  /-- The `#` column. -/
  num : Nat
  mask : Word
  value : Word
  deriving DecidableEq, Repr

/-- Does the word select the row (R86)? -/
def OpcodeRow.selects (r : OpcodeRow) (op : Word) : Bool := op &&& r.mask == r.value

/-- Rows 1 to 20 of R86. -/
def opcodeMapLow : List OpcodeRow :=
  [⟨1, 0xFFFF, 0x00E0⟩, ⟨2, 0xFFFF, 0x00EE⟩, ⟨3, 0xF000, 0x0000⟩, ⟨4, 0xF000, 0x1000⟩, ⟨5, 0xF000, 0x2000⟩,
   ⟨6, 0xF000, 0x3000⟩, ⟨7, 0xF000, 0x4000⟩, ⟨8, 0xF00F, 0x5000⟩, ⟨9, 0xF000, 0x6000⟩, ⟨10, 0xF000, 0x7000⟩,
   ⟨11, 0xF00F, 0x8000⟩, ⟨12, 0xF00F, 0x8001⟩, ⟨13, 0xF00F, 0x8002⟩, ⟨14, 0xF00F, 0x8003⟩, ⟨15, 0xF00F, 0x8004⟩,
   ⟨16, 0xF00F, 0x8005⟩, ⟨17, 0xF00F, 0x8006⟩, ⟨18, 0xF00F, 0x8007⟩, ⟨19, 0xF00F, 0x800E⟩, ⟨20, 0xF00F, 0x9000⟩]

/-- Rows 21 to 35 of R86. -/
def opcodeMapHigh : List OpcodeRow :=
  [⟨21, 0xF000, 0xA000⟩, ⟨22, 0xF000, 0xB000⟩, ⟨23, 0xF000, 0xC000⟩, ⟨24, 0xF000, 0xD000⟩, ⟨25, 0xF0FF, 0xE09E⟩,
   ⟨26, 0xF0FF, 0xE0A1⟩, ⟨27, 0xF0FF, 0xF007⟩, ⟨28, 0xF0FF, 0xF00A⟩, ⟨29, 0xF0FF, 0xF015⟩, ⟨30, 0xF0FF, 0xF018⟩,
   ⟨31, 0xF0FF, 0xF01E⟩, ⟨32, 0xF0FF, 0xF029⟩, ⟨33, 0xF0FF, 0xF033⟩, ⟨34, 0xF0FF, 0xF055⟩, ⟨35, 0xF0FF, 0xF065⟩]

/-- The opcode map R86, all 35 rows. -/
def opcodeMap : List OpcodeRow := opcodeMapLow ++ opcodeMapHigh

/-- The number of an instruction's row in R86. -/
def Instr.rowNum : Instr → Nat
  | .cls => 1
  | .ret => 2
  | .sys _ => 3
  | .jp _ => 4
  | .call _ => 5
  | .seImm _ _ => 6
  | .sneImm _ _ => 7
  | .seReg _ _ => 8
  | .ldImm _ _ => 9
  | .addImm _ _ => 10
  | .ldReg _ _ => 11
  | .orReg _ _ => 12
  | .andReg _ _ => 13
  | .xorReg _ _ => 14
  | .addReg _ _ => 15
  | .subReg _ _ => 16
  | .shrReg _ _ => 17
  | .subnReg _ _ => 18
  | .shlReg _ _ => 19
  | .sneReg _ _ => 20
  | .ldI _ => 21
  | .jpV0 _ => 22
  | .rnd _ _ => 23
  | .drw _ _ _ => 24
  | .skp _ => 25
  | .sknp _ => 26
  | .ldVxDt _ => 27
  | .ldVxK _ => 28
  | .ldDtVx _ => 29
  | .ldStVx _ => 30
  | .addI _ => 31
  | .ldF _ => 32
  | .ldB _ => 33
  | .stRegs _ => 34
  | .ldRegs _ => 35

/-- The word whose bits are `w`, of which the table gives `nbits`; the bits above are 0. -/
def tableWord (nbits w : Nat) : Word := BitVec.ofNat 16 (w % 2 ^ nbits)

/-- The instruction the decoder reads from the bytes of `tableWord nbits w`, laid out high byte first (R63). -/
def decodeTableWord (nbits w : Nat) : Option Instr :=
  match decodeBytes [hiByte (tableWord nbits w), loByte (tableWord nbits w)] with
  | .ok (i, _) => some i
  | .error _ => none

end Sys2Proof
end

