-- ==== Sys2Proof/Config.lean ====
section
/-! DEFINITION. What the spec fixes for the machine (00_scope.md R7) and the one free value (R39). -/

namespace Sys2Proof.Config

/-- `MEM_SIZE` (R7, R30): the addresses are `0x000` to `0xFFF`. -/
abbrev memSize : Nat := 4096

/-- `PROG_BASE` (R7, R24): the load address and the reset value of `PC`. -/
abbrev progBase : Nat := 0x200

/-- `PROG_MAX` (R7, R232): the largest loadable program, in bytes. -/
abbrev progMax : Nat := 3584

/-- FREE VALUE (R39, R217, D26; log 4): the byte the n-th `CXNN` draws. It has no body, so nothing can be
proved of its value: "any of the 256 values at each `CXNN`". -/
opaque rand : Nat → Byte

end Sys2Proof.Config
end

