-- ==== Sys2Proof/Machine/Font.lean ====
section
/-! DEFINITION. The default of the parameter `FONT` and the reset content of the Memory Image (10_state.md R30,
R31, R42). The parameter itself is `State.font`: no definition but `State.reset` names the default. -/

namespace Sys2Proof.Machine

/-- Glyphs 0 to 7 of the default table R31 prints (PRESUMED, log 2, unsafe for runs from `State.reset` that read
`0x000` to `0x04F`: the spec took the bytes from general knowledge). -/
def fontLow : Vector Byte 40 :=
  #v[0xF0, 0x90, 0x90, 0x90, 0xF0,  0x20, 0x60, 0x20, 0x20, 0x70,
     0xF0, 0x10, 0xF0, 0x80, 0xF0,  0xF0, 0x10, 0xF0, 0x10, 0xF0,
     0x90, 0x90, 0xF0, 0x10, 0x10,  0xF0, 0x80, 0xF0, 0x10, 0xF0,
     0xF0, 0x80, 0xF0, 0x90, 0xF0,  0xF0, 0x10, 0x20, 0x40, 0x40]

/-- Glyphs 8 to F of the same table (R31; PRESUMED, log 2). -/
def fontHigh : Vector Byte 40 :=
  #v[0xF0, 0x90, 0xF0, 0x90, 0xF0,  0xF0, 0x90, 0xF0, 0x10, 0xF0,
     0xF0, 0x90, 0xF0, 0x90, 0x90,  0xE0, 0x90, 0xE0, 0x90, 0xE0,
     0xF0, 0x80, 0x80, 0x80, 0xF0,  0xE0, 0x90, 0x90, 0x90, 0xE0,
     0xF0, 0x80, 0xF0, 0x80, 0xF0,  0xF0, 0x80, 0xF0, 0x80, 0x80]

/-- The default of `FONT` (R31, D3; PRESUMED, log 2). -/
def defaultFont : Font := fontLow ++ fontHigh

/-- What memory holds after `RESET`, and so what an unlisted address reads as: the font table at its place, then
0 (R42; log 13). -/
def resetByte (font : Font) (a : Nat) : Byte := if h : a < 80 then font[a] else 0

end Sys2Proof.Machine
end

