-- ==== Sys2Proof/Machine/State.lean ====
section
/-! DEFINITION. The machine's state (10_state.md R20 to R43), its errors (60_exceptions.md R250), the host's
commands (46_host_operations.md R230) and the reset state (R42). -/

namespace Sys2Proof.Machine

/-- Why a step could stop without a next state. There is no such reason: every error of this machine is the
fatal error of R250, whose entry R256 is a next state (log 1, safe). -/
inductive Fault where
  deriving DecidableEq, Repr

/-- Why the model gives no meaning. -/
inductive Refusal where
  /-- An instruction with no meaning yet, raised by `exec`. Safe. Every instruction has one, so no arm uses it. -/
  | notModelled (mnemonic : String)
  /-- `LOAD` when the previous command was not `RESET`, raised by `load`: "a model refuses it" (R232, U6). Safe. -/
  | loadNotAfterReset
  /-- `LOAD` of more than 3584 bytes, raised by `load`: "a model refuses it" (R232, U6). Safe. -/
  | loadTooLong
  deriving DecidableEq, Repr

/-- The six fatal errors, by name; `ErrorCode.number` gives their codes (R250). -/
inductive ErrorCode where
  | unrecognizedOpcode
  | unsupportedMachineRoutine
  | memoryOutOfRange
  | stackOverflow
  | stackUnderflow
  | keyIndexOutOfRange
  deriving DecidableEq, Repr

/-- The error record `(code, pc, opcode)`; no opcode when the fetch itself failed (R38). -/
structure ErrorRecord where
  code : ErrorCode
  pc : Word
  opcode : Option Word
  deriving DecidableEq, Repr

/-- The mode, a function of `halted` and `wait_key` (R37). -/
inductive Mode where
  | running
  | awaitingKey
  | halted
  deriving DecidableEq, Repr

/-- The commands of the command port (R230). -/
inductive Command where
  /-- R280. -/
  | reset
  /-- R232. -/
  | load (bytes : List Byte)
  /-- R100. -/
  | step
  /-- R234. -/
  | tick
  /-- R235. -/
  | keyDown (k : Key)
  /-- R236. -/
  | keyUp (k : Key)
  /-- R237. -/
  | present
  deriving DecidableEq, Repr

/-- The Memory Image (R30) as the bytes that differ from its reset content, in rising order of address. -/
abbrev Memory := List Host.Cell

/-- The whole state (R20); then the parameter `FONT`, which no command writes, and three fields of the model's own. -/
structure State where
  /-- `V0` to `VF` (R21). -/
  v : Vector Byte 16
  /-- `I` (R23). -/
  i : Word
  /-- `PC` (R24). -/
  pc : Word
  /-- `SP`, the number of return addresses on the stack (R26; log 11). -/
  sp : Fin 17
  /-- `stack[0..15]` (R27). -/
  stack : Vector Word 16
  /-- `DT` (R28). -/
  dt : Byte
  /-- `ST` (R29). -/
  st : Byte
  /-- `mem` (R30). -/
  mem : Memory
  /-- `px`, rows from the top (R32). -/
  px : Vector DispRow 32
  /-- `changed` (R33). -/
  changed : Bool
  /-- `key[0..15]` (R34). -/
  key : Vector Bool 16
  /-- `last_key` (R35); no rule reads it (log 14). -/
  lastKey : Option Key
  /-- `halted` (R36). -/
  halted : Bool
  /-- `wait_key` (R37). -/
  waitKey : Bool
  /-- `wait_reg` (R37). -/
  waitReg : Nibble
  /-- `err` (R38). -/
  err : Option ErrorRecord
  /-- The parameter `FONT` (R8, R31): what `RESET` puts at `0x000` to `0x04F`. It is fixed for the machine; a
  statement over every state ranges over every `FONT` (log 2). -/
  font : Font
  /-- The model's own: how many random bytes have been drawn (R39; log 4). -/
  draws : Nat
  /-- The model's own: the host's commands still to come; none left means `STEP` (R231; log 5). -/
  schedule : List Command
  /-- The model's own: the previous command was `RESET` (R232; log 6). -/
  fresh : Bool
  deriving DecidableEq, Repr

/-- The state after `RESET` and before any `LOAD`, of the machine whose parameter `FONT` is `font` (R8, R42).
`draws` and `schedule` are DESIGN CHOICE (log 4, log 5). -/
def State.resetWith (font : Font) : State where
  v := Vector.replicate 16 0
  i := 0
  pc := BitVec.ofNat 16 Config.progBase
  sp := 0
  stack := Vector.replicate 16 0
  dt := 0
  st := 0
  mem := []
  px := Vector.replicate 32 0
  changed := false
  key := Vector.replicate 16 false
  lastKey := none
  halted := false
  waitKey := false
  waitReg := 0
  err := none
  font := font
  draws := 0
  schedule := []
  fresh := true

/-- The reset state with `FONT` at the default the spec gives it (R31; PRESUMED, log 2). -/
def State.reset : State := State.resetWith defaultFont

end Sys2Proof.Machine
end

