-- ==== Sys2Proof/Machine/Ops.lean ====
section
/-! DEFINITION. The named operations over memory, registers, stack, display and mode, the commit of an
instruction, and taking the fatal error. -/

namespace Sys2Proof.Machine

/-- What every meaning answers. -/
abbrev Result := Host.Outcome State Fault Refusal

/-! Memory (20_memory.md R60, R65). Callers check the range first (`inMemory`). -/

/-- The canonical form: addresses below 4096 and strictly rising, no byte equal to its reset content. -/
def Memory.wf (font : Font) : Memory → Bool
  | [] => true
  | (a, v) :: rest =>
    decide (a < Config.memSize) && v != resetByte font a && rest.all (fun c => decide (a < c.1)) && Memory.wf font rest

/-- The byte at an address: the listed one, else its reset content. -/
def Memory.read (font : Font) : Memory → Nat → Byte
  | [], a => resetByte font a
  | (b, v) :: rest, a => if a = b then v else Memory.read font rest a

/-- One byte stored, keeping the canonical form. -/
def Memory.write (font : Font) : Memory → Nat → Byte → Memory
  | [], a, v => if v = resetByte font a then [] else [(a, v)]
  | (b, w) :: rest, a, v =>
    if a < b then (if v = resetByte font a then (b, w) :: rest else (a, v) :: (b, w) :: rest)
    else if a = b then (if v = resetByte font a then rest else (a, v) :: rest)
    else (b, w) :: Memory.write font rest a v

/-- Bytes stored one after the other from an address upward (R65). -/
def Memory.writeBytes (font : Font) : Memory → Nat → List Byte → Memory
  | m, _, [] => m
  | m, a, b :: bs => Memory.writeBytes font (Memory.write font m a b) (a + 1) bs

/-- Are the `len` bytes from `base` all below 4096? The sum is unbounded, no wrap (R61, D5); no byte, no check. -/
def inMemory (base len : Nat) : Bool := len == 0 || decide (base + len ≤ Config.memSize)

/-! Registers (R21). -/

/-- `V[x]`. -/
def State.readV (s : State) (x : Nibble) : Byte := s.v[x.toNat]'x.isLt

/-- `V[x] <- b`. -/
def State.writeV (s : State) (x : Nibble) (b : Byte) : State := { s with v := s.v.set x.toNat b x.isLt }

/-- All sixteen registers at once. -/
def State.setRegs (s : State) (v : Vector Byte 16) : State := { s with v := v }

def State.setPc (s : State) (p : Word) : State := { s with pc := p }
def State.setI (s : State) (a : Word) : State := { s with i := a }
def State.setDt (s : State) (b : Byte) : State := { s with dt := b }
def State.setSt (s : State) (b : Byte) : State := { s with st := b }
def State.setMem (s : State) (m : Memory) : State := { s with mem := m }

/-- `MemRead(a, 1)` (R12). -/
def State.readMem (s : State) (a : Nat) : Byte := Memory.read s.font s.mem a

/-- `MemWrite(a + j, 1, bytes[j])` for each `j` in order (R12, R65). -/
def State.storeBytes (s : State) (a : Nat) (bytes : List Byte) : State :=
  s.setMem (Memory.writeBytes s.font s.mem a bytes)

def State.setStack (s : State) (stack : Vector Word 16) (sp : Fin 17) : State := { s with stack := stack, sp := sp }
def State.setDisplay (s : State) (px : Vector DispRow 32) (changed : Bool) : State := { s with px := px, changed := changed }
def State.setKeys (s : State) (key : Vector Bool 16) (lastKey : Option Key) : State := { s with key := key, lastKey := lastKey }
def State.setWait (s : State) (on : Bool) (x : Nibble) : State := { s with waitKey := on, waitReg := x }

/-- One random byte has been drawn (log 4). -/
def State.countDraw (s : State) : State := { s with draws := s.draws + 1 }

/-- What the command port remembers (log 5, log 6). -/
def State.setPort (s : State) (schedule : List Command) (fresh : Bool) : State :=
  { s with schedule := schedule, fresh := fresh }

/-! The call stack (R26, R27). -/

/-- Push: write `stack[SP]`, then add 1 to `SP`; none when the stack is full. -/
def State.push (s : State) (w : Word) : Option State :=
  if h : s.sp.val < 16 then some (s.setStack (s.stack.set s.sp.val w h) ⟨s.sp.val + 1, by omega⟩) else none

/-- Pop: the last entry pushed and the state with `SP` one less, the entry not cleared; none when it is empty. -/
def State.pop (s : State) : Option (Word × State) :=
  if h : 0 < s.sp.val then
    some (s.stack[s.sp.val - 1]'(by omega), s.setStack s.stack ⟨s.sp.val - 1, by omega⟩)
  else none

/-! The mode (R37). -/

/-- Halted whatever `wait_key` is, else AwaitingKey while it is 1, else Running (R37). -/
def State.mode (s : State) : Mode := if s.halted then .halted else if s.waitKey then .awaitingKey else .running

/-! The display (R32). -/

/-- `px[y][x]`. -/
def State.pixel (s : State) (x : Fin 64) (y : Fin 32) : Bool := (s.px[y]).getMsbD x.val

/-! The numeric error codes (60_exceptions.md R250). -/

/-- The code of an error, as the table of R250 numbers them (D23) and as the output `err` shows it. -/
def ErrorCode.number : ErrorCode → Nat
  | .unrecognizedOpcode => 1
  | .unsupportedMachineRoutine => 2
  | .memoryOutOfRange => 3
  | .stackOverflow => 4
  | .stackUnderflow => 5
  | .keyIndexOutOfRange => 6

/-! Taking the fatal error, the machine's only exception (60_exceptions.md R256): `halted` and `err` change and
nothing else; `PC` keeps the address of the failing instruction and there is no handler. There is no return from
it (R260): only `RESET` leaves the halted state. -/

/-- Fatal-error entry (R256) for the instruction at `PC`, with its word or none. -/
def State.fatal (s : State) (code : ErrorCode) (opcode : Option Word) : State :=
  { s with halted := true, err := some ⟨code, s.pc, opcode⟩ }

/-- An instruction raises an error: none of its writes happen (R13, R106). The word it was fetched as is its
encoding (DEDUCED, log 8, safe: decoding loses no bit). -/
def raise (code : ErrorCode) (i : Instr) (s : State) : Result := .next (s.fatal code (some (encode i)))

/-! Committing an instruction (40_step_cycle.md R104 to R106). -/

/-- `next = pc0 + 2` (log 9: through `step` the sum never wraps). -/
def State.nextPc (s : State) : Word := s.pc + 2

/-- Commit with `PC <- next` (R105). -/
def complete (s : State) : Result := .next (s.setPc s.nextPc)

/-- Commit a conditional skip (41_control_flow.md R129): `PC <- next + 2` when it is taken, else `PC <- next`. -/
def skipIf (taken : Bool) (s : State) : Result := .next (s.setPc (if taken then s.nextPc + 2 else s.nextPc))

end Sys2Proof.Machine
end

