-- ==== Sys2Proof/Machine/Operands.lean ====
section
/-! DEFINITION. Operand forms: immediates (30_encoding.md R83), key operands (R210), the sprite's origin and
rows (44_display.md R191, R192), the register block of `FX55` and `FX65` (43_index_memory.md R174, R175). -/

namespace Sys2Proof.Machine

/-- `NNN` as a 16-bit address, zero-extended (R83). -/
def addrOperand (nnn : Addr) : Word := nnn.setWidth 16

/-- A register value as a 16-bit number, zero-extended (R10). -/
def extendByte (b : Byte) : Word := b.setWidth 16

/-- A register value as a key index: none above 15 (R210, R211, D14). -/
def keyOperand (b : Byte) : Option Key := if h : b.toNat < 16 then some ⟨b.toNat, h⟩ else none

/-- A key index as a register value (R213). -/
def keyByte (k : Key) : Byte := BitVec.ofNat 8 k.val

/-- The column of the sprite's origin, `V[X] mod 64` (R192). -/
def originX (s : State) (x : Nibble) : Nat := (s.readV x).toNat % 64

/-- The row of the sprite's origin, `V[Y] mod 32` (R192). -/
def originY (s : State) (y : Nibble) : Nat := (s.readV y).toNat % 32

/-- One sprite row laid on a display row, its bit 7 at column `ox`; what passes column 63 is lost (R191, R192). -/
def placeSpriteRow (b : Byte) (ox : Nat) : DispRow := (b ++ 0#56 : BitVec 64) >>> ox

/-- The sprite as a whole grid: row `r` of its `n` rows, the byte `mem[I + r]`, falls on grid row `oy + r`; a row
past 31 falls on none (R191, R192). -/
def spriteGrid (s : State) (ox oy n : Nat) : Vector DispRow 32 :=
  Vector.ofFn fun y =>
    if oy ≤ y.val ∧ y.val < oy + n then placeSpriteRow (s.readMem (s.i.toNat + (y.val - oy))) ox else 0

/-- Every set sprite bit XORs its pixel (R193). -/
def xorGrid (px grid : Vector DispRow 32) : Vector DispRow 32 := Vector.ofFn fun y => px[y] ^^^ grid[y]

/-- The bytes `V[0]` to `V[x]`, in register order (R174). -/
def registerBlock (s : State) (x : Nibble) : List Byte := s.v.toList.take (x.toNat + 1)

/-- `V[j] <- mem[I + j]` for `j` up to `x`, the registers above it unchanged (R175). -/
def loadBlock (s : State) (x : Nibble) : Vector Byte 16 :=
  Vector.ofFn fun j => if j.val ≤ x.toNat then s.readMem (s.i.toNat + j.val) else s.v[j]

/-- The three decimal digits of a byte, hundreds first (R173). -/
def decimalDigits (a : Byte) : List Byte :=
  [BitVec.ofNat 8 (a.toNat / 100), BitVec.ofNat 8 (a.toNat / 10 % 10), BitVec.ofNat 8 (a.toNat % 10)]

end Sys2Proof.Machine
end

