-- ==== Sys2Proof/Machine/Flags.lean ====
section
/-! DEFINITION. The values `VF` takes as a flag (10_state.md R22) and the order of the two writes (42_alu.md R140). -/

namespace Sys2Proof.Machine

/-- Carry of `8XY4`: the unbounded sum exceeds 255 (R147). -/
def carryFlag (a b : Byte) : Bool := decide (a.toNat + b.toNat > 255)

/-- No borrow in `a - b`: `a >= b` on the operands as read (R148, R150). -/
def noBorrowFlag (a b : Byte) : Bool := decide (a.toNat ≥ b.toNat)

/-- Bit 0 before the shift (R149). -/
def shiftRightFlag (a : Byte) : Bool := a.getLsbD 0

/-- Bit 7 before the shift (R151). -/
def shiftLeftFlag (a : Byte) : Bool := a.getLsbD 7

/-- Collision of `DXYN`: some set bit of the sprite's grid meets a set pixel (R194). -/
def collisionFlag (px grid : Vector DispRow 32) : Bool := (List.finRange 32).any fun y => px[y] &&& grid[y] != 0

/-- A flag as the value `VF` holds. -/
def flagByte (f : Bool) : Byte := if f then 1 else 0

/-- `VF <- flag`. -/
def State.writeFlag (s : State) (f : Bool) : State := s.writeV 0xF (flagByte f)

/-- The result into `V[x]`, then the flag into `VF`, which wins when `x` is `F` (R140, D11); `PC <- next`. -/
def completeWithFlag (x : Nibble) (result : Byte) (flag : Bool) (s : State) : Result :=
  complete ((s.writeV x result).writeFlag flag)

end Sys2Proof.Machine
end

