-- ==== Sys2Proof/Machine/Alu.lean ====
section
/-! DEFINITION. Register loads and the ALU (42_alu.md R140 to R153). No instruction here can raise an error. -/

namespace Sys2Proof.Machine

/-- `6XNN` (R141). -/
def execLdImm (x : Nibble) (nn : Byte) (s : State) : Result := complete (s.writeV x nn)

/-- `7XNN` (R142): modulo 256, no flag. -/
def execAddImm (x : Nibble) (nn : Byte) (s : State) : Result := complete (s.writeV x (s.readV x + nn))

/-- `8XY0` (R143). -/
def execLdReg (x y : Nibble) (s : State) : Result := complete (s.writeV x (s.readV y))

/-- `8XY1` (R144): `VF` is left alone (D12). -/
def execOrReg (x y : Nibble) (s : State) : Result := complete (s.writeV x (s.readV x ||| s.readV y))

/-- `8XY2` (R145): `VF` is left alone (D12). -/
def execAndReg (x y : Nibble) (s : State) : Result := complete (s.writeV x (s.readV x &&& s.readV y))

/-- `8XY3` (R146): `VF` is left alone (D12). -/
def execXorReg (x y : Nibble) (s : State) : Result := complete (s.writeV x (s.readV x ^^^ s.readV y))

/-- `8XY4` (R147). -/
def execAddReg (x y : Nibble) (s : State) : Result :=
  completeWithFlag x (s.readV x + s.readV y) (carryFlag (s.readV x) (s.readV y)) s

/-- `8XY5` (R148). -/
def execSubReg (x y : Nibble) (s : State) : Result :=
  completeWithFlag x (s.readV x - s.readV y) (noBorrowFlag (s.readV x) (s.readV y)) s

/-- `8XY6` (R149): `VX` in place, `Y` neither read nor written (R91, D10). -/
def execShrReg (x _y : Nibble) (s : State) : Result :=
  completeWithFlag x (s.readV x >>> 1) (shiftRightFlag (s.readV x)) s

/-- `8XY7` (R150). -/
def execSubnReg (x y : Nibble) (s : State) : Result :=
  completeWithFlag x (s.readV y - s.readV x) (noBorrowFlag (s.readV y) (s.readV x)) s

/-- `8XYE` (R151): `VX` in place, `Y` neither read nor written (R91, D10). -/
def execShlReg (x _y : Nibble) (s : State) : Result :=
  completeWithFlag x (s.readV x <<< 1) (shiftLeftFlag (s.readV x)) s

end Sys2Proof.Machine
end

