-- ==== Sys2Proof/Machine/Control.lean ====
section
/-! DEFINITION. Control transfer (41_control_flow.md R120 to R130). -/

namespace Sys2Proof.Machine

/-- `00EE` (R120). -/
def execRet (s : State) : Result :=
  match s.pop with
  | none => raise .stackUnderflow .ret s
  | some (w, t) => .next (t.setPc w)

/-- `0NNN` (R121): always the error. -/
def execSys (nnn : Addr) (s : State) : Result := raise .unsupportedMachineRoutine (.sys nnn) s

/-- `1NNN` (R122). -/
def execJp (nnn : Addr) (s : State) : Result := .next (s.setPc (addrOperand nnn))

/-- `2NNN` (R123): the return address is `next`. -/
def execCall (nnn : Addr) (s : State) : Result :=
  match s.push s.nextPc with
  | none => raise .stackOverflow (.call nnn) s
  | some t => .next (t.setPc (addrOperand nnn))

/-- `BNNN` (R124): always `V0`; the sum is not masked to 12 bits. -/
def execJpV0 (nnn : Addr) (s : State) : Result := .next (s.setPc (extendByte (s.readV 0) + addrOperand nnn))

/-- `3XNN` (R125). -/
def execSeImm (x : Nibble) (nn : Byte) (s : State) : Result := skipIf (s.readV x == nn) s

/-- `4XNN` (R126). -/
def execSneImm (x : Nibble) (nn : Byte) (s : State) : Result := skipIf (s.readV x != nn) s

/-- `5XY0` (R127). -/
def execSeReg (x y : Nibble) (s : State) : Result := skipIf (s.readV x == s.readV y) s

/-- `9XY0` (R128). -/
def execSneReg (x y : Nibble) (s : State) : Result := skipIf (s.readV x != s.readV y) s

end Sys2Proof.Machine
end

