-- ==== Sys2Proof/Machine/Display.lean ====
section
/-! DEFINITION. The display instructions (44_display.md R190 to R196). -/

namespace Sys2Proof.Machine

/-- `00E0` (R190). -/
def execCls (s : State) : Result := complete (s.setDisplay (Vector.replicate 32 0) true)

/-- `DXYN` (R193): all `n` rows are range-checked, clipped ones too; both coordinates are read before `VF` is
written; `VF` is written last, to 0 when nothing collides (D13). -/
def execDrw (x y n : Nibble) (s : State) : Result :=
  if inMemory s.i.toNat n.toNat then
    let grid := spriteGrid s (originX s x) (originY s y) n.toNat
    complete ((s.setDisplay (xorGrid s.px grid) true).writeFlag (collisionFlag s.px grid))
  else raise .memoryOutOfRange (.drw x y n) s

end Sys2Proof.Machine
end

