-- ==== Sys2Proof/Machine/IndexMemory.lean ====
section
/-! DEFINITION. The index register and memory (43_index_memory.md R170 to R176). `I` is unchanged by every load
and store (D20); the whole range is checked before anything moves (D6). -/

namespace Sys2Proof.Machine

/-- `ANNN` (R170). -/
def execLdI (nnn : Addr) (s : State) : Result := complete (s.setI (addrOperand nnn))

/-- `FX1E` (R171): modulo 65536, no flag (D18). -/
def execAddI (x : Nibble) (s : State) : Result := complete (s.setI (s.i + extendByte (s.readV x)))

/-- `FX29` (R172): the literal product for every `VX` (D19). -/
def execLdF (x : Nibble) (s : State) : Result := complete (s.setI (BitVec.ofNat 16 (5 * (s.readV x).toNat)))

/-- `FX33` (R173). -/
def execLdB (x : Nibble) (s : State) : Result :=
  if inMemory s.i.toNat 3 then complete (s.storeBytes s.i.toNat (decimalDigits (s.readV x)))
  else raise .memoryOutOfRange (.ldB x) s

/-- `FX55` (R174). -/
def execStRegs (x : Nibble) (s : State) : Result :=
  if inMemory s.i.toNat (x.toNat + 1) then complete (s.storeBytes s.i.toNat (registerBlock s x))
  else raise .memoryOutOfRange (.stRegs x) s

/-- `FX65` (R175). -/
def execLdRegs (x : Nibble) (s : State) : Result :=
  if inMemory s.i.toNat (x.toNat + 1) then complete (s.setRegs (loadBlock s x))
  else raise .memoryOutOfRange (.ldRegs x) s

end Sys2Proof.Machine
end

