-- ==== Sys2Proof/Machine/Input.lean ====
section
/-! DEFINITION. Keys, the key wait, timers and the random byte (45_input_timers_random.md R210 to R219). -/

namespace Sys2Proof.Machine

/-- `EX9E` (R210). -/
def execSkp (x : Nibble) (s : State) : Result :=
  match keyOperand (s.readV x) with
  | none => raise .keyIndexOutOfRange (.skp x) s
  | some k => skipIf s.key[k] s

/-- `EXA1` (R211): the negation of `EX9E`'s condition (D15). -/
def execSknp (x : Nibble) (s : State) : Result :=
  match keyOperand (s.readV x) with
  | none => raise .keyIndexOutOfRange (.sknp x) s
  | some k => skipIf (!s.key[k]) s

/-- `FX0A` (R212): enter the key wait; the keys are not looked at and `VX` is not written. -/
def execLdVxK (x : Nibble) (s : State) : Result := complete (s.setWait true x)

/-- The lowest key that is down (R213). -/
def lowestKey (s : State) : Option Key := (List.finRange 16).find? fun k => s.key[k]

/-- `STEP` in mode AwaitingKey (R213): the lowest key down ends the wait; with none down nothing changes. -/
def keyScan (s : State) : State :=
  match lowestKey s with
  | some k => (s.writeV s.waitReg (keyByte k)).setWait false s.waitReg
  | none => s

/-- `FX07` (R214). -/
def execLdVxDt (x : Nibble) (s : State) : Result := complete (s.writeV x s.dt)

/-- `FX15` (R215). -/
def execLdDtVx (x : Nibble) (s : State) : Result := complete (s.setDt (s.readV x))

/-- `FX18` (R216). -/
def execLdStVx (x : Nibble) (s : State) : Result := complete (s.setSt (s.readV x))

/-- `CXNN` with the drawn byte as an argument (R217, R108). -/
def rndWith (drawn : Byte) (x : Nibble) (nn : Byte) (s : State) : Result :=
  complete (s.countDraw.writeV x (drawn &&& nn))

/-- `CXNN` (R217): the drawn byte is the free value `Config.rand`, a new one each time (R39; log 4, safe). -/
def execRnd (x : Nibble) (nn : Byte) (s : State) : Result := rndWith (Config.rand s.draws) x nn s

end Sys2Proof.Machine
end

