-- ==== Sys2Proof/Machine/Cycle.lean ====
section
/-! DEFINITION. The `STEP` command: mode, fetch, decode, execute (40_step_cycle.md R100 to R109). -/

namespace Sys2Proof.Machine

/-- The instruction word at `PC`, high byte first; none when `PC` or `PC + 1` is no memory address (R103). -/
def fetchWord (s : State) : Option Word :=
  if inMemory s.pc.toNat 2 then some (wordOfBytes (s.readMem s.pc.toNat) (s.readMem (s.pc.toNat + 1))) else none

/-- Mode Running: one instruction (R103 to R106), the checks in the order of R258. -/
def runInstruction (s : State) : Result :=
  match fetchWord s with
  | none => .next (s.fatal .memoryOutOfRange none)
  | some op =>
    match decode op with
    | .error _ => .next (s.fatal .unrecognizedOpcode (some op))
    | .ok i => exec i s

/-- `STEP` (R100, R109): Halted changes nothing, AwaitingKey scans the keys, Running runs one instruction. -/
def stepCommand (s : State) : Result :=
  match s.mode with
  | .halted => .next s
  | .awaitingKey => .next (keyScan s)
  | .running => runInstruction s

end Sys2Proof.Machine
end

