-- ==== Sys2Proof/Machine/Commands.lean ====
section
/-! DEFINITION. The command port (46_host_operations.md R230 to R239, 70_reset_and_hazards.md R280) and the
outputs (10_state.md R40). -/

namespace Sys2Proof.Machine

/-- The error report as the output `err` shows it: the error's number, `PC`, the word or none (R38, R250). -/
structure ErrorReport where
  code : Nat
  pc : Word
  opcode : Option Word
  deriving DecidableEq, Repr

/-- A record as it is shown. -/
def ErrorRecord.report (e : ErrorRecord) : ErrorReport := ⟨e.code.number, e.pc, e.opcode⟩

/-- What the host observes, continuously (R40). -/
structure Outputs where
  display : Vector DispRow 32
  changed : Bool
  tone : Bool
  halted : Bool
  err : Option ErrorReport
  deriving DecidableEq, Repr

/-- The outputs are functions of the state; `tone` is 1 while `ST` is not 0 (R40; log 16). -/
def State.outputs (s : State) : Outputs := ⟨s.px, s.changed, s.st != 0, s.halted, s.err.map ErrorRecord.report⟩

/-- The command port no longer remembers a `RESET` (log 6). -/
def State.issued (s : State) : State := s.setPort s.schedule false

/-- One timer period: minus 1 unless already 0 (R234). -/
def countDown (t : Byte) : Byte := if t = 0 then 0 else t - 1

/-- `TICK` (R234): both timers, in every mode but Halted. -/
def tick (s : State) : State := if s.halted then s else (s.setDt (countDown s.dt)).setSt (countDown s.st)

/-- `KEY_DOWN(k)` (R235), in every mode. -/
def keyDown (k : Key) (s : State) : State := s.setKeys (s.key.set k.val true) (some k)

/-- `KEY_UP(k)` (R236), in every mode; `last_key` is unchanged. -/
def keyUp (k : Key) (s : State) : State := s.setKeys (s.key.set k.val false) s.lastKey

/-- `PRESENT` (R237): the host has sampled the outputs; the flag is cleared. -/
def present (s : State) : State := s.setDisplay s.px false

/-- `RESET` (R280): every state element at its reset value, the parameter `FONT` staying what it is; the free draws go on from where they were (log 4),
and the port goes on with its commands. -/
def reset (s : State) : State := { State.resetWith s.font with draws := s.draws, schedule := s.schedule }

/-- `LOAD(bytes)` (R232): the bytes at `0x200` upward; refused outside its precondition (U6, D28; log 7). -/
def load (bytes : List Byte) (s : State) : Result :=
  if s.fresh = false then .refused .loadNotAfterReset
  else if bytes.length ≤ Config.progMax then .next (s.storeBytes Config.progBase bytes).issued
  else .refused .loadTooLong

/-- The meaning of one command (R230). -/
def issue (c : Command) (s : State) : Result :=
  match c with
  | .reset => .next (reset s)
  | .load bytes => load bytes s
  | .step => stepCommand s.issued
  | .tick => .next (tick s.issued)
  | .keyDown k => .next (keyDown k s.issued)
  | .keyUp k => .next (keyUp k s.issued)
  | .present => .next (present s.issued)

/-- A word placed where the next `STEP` fetches: all that `State.withFetchWord` changes (log 12). -/
def placeForFetch (s : State) (op : Word) : State :=
  let pc : Word := if inMemory s.pc.toNat 2 then s.pc else BitVec.ofNat 16 Config.progBase
  { s with
    mem := (s.storeBytes pc.toNat [hiByte op, loByte op]).mem
    pc := pc
    halted := false
    waitKey := false
    schedule := [] }

end Sys2Proof.Machine
end

