-- ==== Sys2Proof/Machine/Step.lean ====
section
/-! DEFINITION. One step of the machine: the host's next command (46_host_operations.md R230, R231). -/

namespace Sys2Proof.Machine

/-- The next command of the schedule; with none left the host issues `STEP` (R231; DESIGN CHOICE, log 5, safe). -/
def step (s : State) : Host.Outcome State Fault Refusal :=
  match s.schedule with
  | [] => issue .step s
  | c :: rest => issue c (s.setPort rest s.fresh)

/-- `s` with the instruction word stored where `step` fetches next, in mode Running with the host's schedule
empty; a `PC` that addresses no instruction word is taken to `0x200` first (DESIGN CHOICE, log 12). -/
def State.withFetchWord (s : State) (nbits w : Nat) : State :=
  placeForFetch s (tableWord nbits w)

end Sys2Proof.Machine
end

