-- ==== Sys2Proof/Safety.lean ====
section
/-! DEFINITION. What counts as a reachable-looking state and a run's end, and the terms claims use. -/

namespace Sys2Proof.Machine

/-- The invariant of 10_state.md R43, with the two facts the model's own fields obey (log 5, log 6). What R43
calls "0 to 255", "0 to 65535" and "0 <= SP <= 16" the types say. -/
structure State.Inv (s : State) : Prop where
  /-- The memory's canonical form. -/
  mem : Memory.wf s.font s.mem = true
  /-- `PC <= 0x10FE`. -/
  pc : s.pc.toNat ≤ 0x10FE
  /-- Not both halted and waiting. -/
  mode : ¬(s.halted = true ∧ s.waitKey = true)
  /-- `err` is none exactly when `halted = 0`. -/
  err : s.err = none ↔ s.halted = false
  /-- A live stack entry is a call's address plus 2, and a call is fetched from an address up to `0xFFE`. -/
  stack : ∀ j : Fin 16, j.val < s.sp.val → 2 ≤ (s.stack[j]).toNat ∧ (s.stack[j]).toNat ≤ 0x1000
  /-- Directly after `RESET` the machine is in the reset state (what makes R232's precondition mean that). -/
  fresh : s.fresh = true → s = { State.resetWith s.font with draws := s.draws, schedule := s.schedule }

/-- "The program has ended" (R282): Running, and the word at `PC` is a jump to itself. -/
def State.ended (s : State) : Bool :=
  s.mode == .running && decide (s.pc.toNat ≤ 0xFFE) &&
    decide ((s.readMem s.pc.toNat).toNat * 256 + (s.readMem (s.pc.toNat + 1)).toNat = 0x1000 + s.pc.toNat)

/-- The error an instruction raises in a state, if any: the causes of R252 to R255 and R257. -/
def errorOf (i : Instr) (s : State) : Option ErrorCode :=
  match i with
  | .sys _ => some .unsupportedMachineRoutine
  | .ret => if s.sp.val = 0 then some .stackUnderflow else none
  | .call _ => if s.sp.val = 16 then some .stackOverflow else none
  | .drw _ _ n => if n.toNat > 0 ∧ s.i.toNat + n.toNat > 4096 then some .memoryOutOfRange else none
  | .ldB _ => if s.i.toNat + 2 > 4095 then some .memoryOutOfRange else none
  | .stRegs x | .ldRegs x => if s.i.toNat + x.toNat > 4095 then some .memoryOutOfRange else none
  | .skp x | .sknp x => if (s.readV x).toNat ≥ 16 then some .keyIndexOutOfRange else none
  | .cls | .jp _ | .seImm _ _ | .sneImm _ _ | .seReg _ _ | .ldImm _ _ | .addImm _ _ | .ldReg _ _
  | .orReg _ _ | .andReg _ _ | .xorReg _ _ | .addReg _ _ | .subReg _ _ | .shrReg _ _ | .subnReg _ _
  | .shlReg _ _ | .sneReg _ _ | .ldI _ | .jpV0 _ | .rnd _ _ | .ldVxDt _ | .ldVxK _ | .ldDtVx _
  | .ldStVx _ | .addI _ | .ldF _ => none

/-- The registers an instruction that completes may write (R21 "Writers"). -/
def writesReg (i : Instr) (r : Nibble) : Bool :=
  match i with
  | .ldImm x _ | .addImm x _ | .ldReg x _ | .orReg x _ | .andReg x _ | .xorReg x _ | .rnd x _
  | .ldVxDt x => r == x
  | .addReg x _ | .subReg x _ | .shrReg x _ | .subnReg x _ | .shlReg x _ => r == x || r == 0xF#4
  | .drw _ _ _ => r == 0xF#4
  | .ldRegs x => decide (r.toNat ≤ x.toNat)
  | .cls | .ret | .sys _ | .jp _ | .call _ | .seImm _ _ | .sneImm _ _ | .seReg _ _ | .sneReg _ _
  | .ldI _ | .jpV0 _ | .skp _ | .sknp _ | .ldVxK _ | .ldDtVx _ | .ldStVx _ | .addI _ | .ldF _
  | .ldB _ | .stRegs _ => false

/-- The instruction word at `PC`, where there is one (R103). -/
def wordAtPc (s : State) : Word := wordOfBytes (s.readMem s.pc.toNat) (s.readMem (s.pc.toNat + 1))

/-- The error a `STEP` in mode Running raises, if any, with the word its record holds: the fetch check, then
decoding, then the instruction's own check (R258). -/
def stepError (s : State) : Option (ErrorCode × Option Word) :=
  if s.pc.toNat ≥ 0xFFF then some (.memoryOutOfRange, none)
  else match decode (wordAtPc s) with
    | .error _ => some (.unrecognizedOpcode, some (wordAtPc s))
    | .ok i => (errorOf i s).map fun c => (c, some (wordAtPc s))

/-- The host's next command is `STEP`, and `rest` are the commands after it (log 5). -/
def State.issuesStep (s : State) (rest : List Command) : Prop :=
  (s.schedule = [] ∧ rest = []) ∨ s.schedule = .step :: rest

/-- The instruction completes with `PC <- next`; its registers are then `regs`, and nothing else has changed. -/
def CompletesWithRegs (i : Instr) (s : State) (regs : Nibble → Byte) : Prop :=
  ∃ t : State, exec i s = .next t ∧ (∀ r, t.readV r = regs r) ∧ t = { s with v := t.v, pc := s.pc + 2 }

/-- The instruction takes the fatal error `code`: a next state in which `halted` and `err` alone have changed (R256). -/
def RaisesFatal (i : Instr) (s : State) (code : ErrorCode) : Prop :=
  exec i s = .next { s with halted := true, err := some ⟨code, s.pc, some (encode i)⟩ }

/-- Is the pixel in column `c`, row `r` the on-grid target of a set bit of the sprite `DXYN` draws: bit `7 - c'`
of `mem[I + r']` for its offsets `c'`, `r'` from the origin (R191, R192)? -/
def spriteBit (s : State) (x y n : Nibble) (c : Fin 64) (r : Fin 32) : Bool :=
  let ox := (s.readV x).toNat % 64
  let oy := (s.readV y).toNat % 32
  decide (ox ≤ c.val ∧ c.val < ox + 8 ∧ oy ≤ r.val ∧ r.val < oy + n.toNat) &&
    (s.readMem (s.i.toNat + (r.val - oy))).getLsbD (7 - (c.val - ox))

/-- Change the next state of an outcome. -/
def mapNext (f : State → State) : Result → Result
  | .next t => .next (f t)
  | .fault r => .fault r
  | .refused r => .refused r

/-- How many bytes from `I` upward an instruction that completes stores to (R60): 3 for `FX33`, `X + 1` for
`FX55`, none for any other. -/
def storedBytes (i : Instr) : Nat :=
  match i with
  | .ldB _ => 3
  | .stRegs x => x.toNat + 1
  | .cls | .ret | .sys _ | .jp _ | .call _ | .seImm _ _ | .sneImm _ _ | .seReg _ _ | .ldImm _ _
  | .addImm _ _ | .ldReg _ _ | .orReg _ _ | .andReg _ _ | .xorReg _ _ | .addReg _ _ | .subReg _ _
  | .shrReg _ _ | .subnReg _ _ | .shlReg _ _ | .sneReg _ _ | .ldI _ | .jpV0 _ | .rnd _ _ | .drw _ _ _
  | .skp _ | .sknp _ | .ldVxDt _ | .ldVxK _ | .ldDtVx _ | .ldStVx _ | .addI _ | .ldF _ | .ldRegs _ => 0

end Sys2Proof.Machine
end

