-- ==== Sys2Proof/Certificates/Slice0/Obligations.lean ====
section
/-! DEFINITION. The statements for the provers. Each docstring names the rules of spec/ it formalises. Where a
statement is about `step`, `rest` is what is left of the host's schedule and `fresh` becomes false: these two
fields are the model's own (log 5, log 6). "D<n>" names a decision of spec/92_eei_decisions.md: there the document
leaves the point open and the choice is the spec's own (log 3). -/

open Sys2Proof Sys2Proof.Machine

/-! Encoding -/

/-- Every well-formed instruction is what its word decodes to (R81, R84, R86). -/
def Obligations.DecodeOfEncode : Prop := ∀ i : Instr, i.wf = true → decode (encode i) = .ok i

/-- A word that decodes is the word of the instruction it decodes to, so that no bit is lost, and the
instruction is well-formed (R86, R91; it is what lets `err` record the encoding as the word: the model's inference,
log 8). -/
def Obligations.EncodeOfDecode : Prop :=
  ∀ (op : Word) (i : Instr), decode op = .ok i → encode i = op ∧ i.wf = true

/-- The decoder and the opcode map of R86 agree: a word decodes to an instruction of a row that selects it, and
is refused exactly when no row selects it (R84, R86). -/
def Obligations.DecoderFollowsOpcodeMap : Prop :=
  ∀ op : Word,
    (∀ i, decode op = .ok i → ∃ r ∈ opcodeMap, r.num = i.rowNum ∧ r.selects op = true) ∧
    (decode op = .error .unrecognizedOpcode ↔ ∀ r ∈ opcodeMap, r.selects op = false)

/-- R85: the exact rows 1 and 2 win over row 3, and no other two rows overlap ("derived: from rule R86" there). -/
def Obligations.OpcodeRowsOverlapOnlyInClassZero : Prop :=
  decode 0x00E0 = .ok .cls ∧ decode 0x00EE = .ok .ret ∧
  ∀ (op : Word) (r q : OpcodeRow), r ∈ opcodeMap → q ∈ opcodeMap → r.num < q.num →
    r.selects op = true → q.selects op = true →
    (op = 0x00E0 ∧ r.num = 1 ∧ q.num = 3) ∨ (op = 0x00EE ∧ r.num = 2 ∧ q.num = 3)

/-- The words that are no instruction, class by class (R88; the exact low nibble of classes 5 and 9 is D8, the
sub-opcodes of class 8 are D9). -/
def Obligations.UnrecognizedWords : Prop :=
  ∀ op : Word, decode op = .error .unrecognizedOpcode ↔
    let c := op.toNat / 4096
    let n := op.toNat % 16
    let nn := op.toNat % 256
    (c = 5 ∧ n ≠ 0) ∨ (c = 8 ∧ n ∈ [8, 9, 0xA, 0xB, 0xC, 0xD, 0xF]) ∨ (c = 9 ∧ n ≠ 0) ∨
    (c = 0xE ∧ nn ∉ [0x9E, 0xA1]) ∨ (c = 0xF ∧ nn ∉ [0x07, 0x0A, 0x15, 0x18, 0x1E, 0x29, 0x33, 0x55, 0x65])

/-- Words written out from R86, one or more a family (R84, R86). -/
def Obligations.SpecWordsDecode : Prop :=
  decode 0x00E0 = .ok .cls ∧ decode 0x0123 = .ok (.sys 0x123) ∧ decode 0x2ABC = .ok (.call 0xABC) ∧
  decode 0x3A42 = .ok (.seImm 0xA 0x42) ∧ decode 0x8AB4 = .ok (.addReg 0xA 0xB) ∧
  decode 0x8AB6 = .ok (.shrReg 0xA 0xB) ∧ decode 0x8ABE = .ok (.shlReg 0xA 0xB) ∧
  decode 0xBFFF = .ok (.jpV0 0xFFF) ∧ decode 0xCA0F = .ok (.rnd 0xA 0x0F) ∧
  decode 0xD125 = .ok (.drw 1 2 5) ∧ decode 0xE1A1 = .ok (.sknp 1) ∧ decode 0xF30A = .ok (.ldVxK 3) ∧
  decode 0xFA65 = .ok (.ldRegs 0xA) ∧ decode 0x5011 = .error .unrecognizedOpcode ∧
  decode 0xF166 = .error .unrecognizedOpcode

/-! The `STEP` command -/

/-- In mode Running, when the bytes at `PC` decode to an instruction, a `STEP` is `exec` of it on the state in
which the port has taken the command (R103 to R106). -/
def Obligations.StepRunsDecodedInstruction : Prop :=
  ∀ (s : State) (rest : List Command) (i : Instr),
    s.issuesStep rest → s.mode = .running → s.pc.toNat ≤ 0xFFE → decode (wordAtPc s) = .ok i →
    step s = exec i { s with schedule := rest, fresh := false }

/-- R103: fetch reads two bytes, high byte first, and is fatal exactly when `PC >= 0xFFF`, with no word in the
record (the unbounded sum is D5, the unchecked parity D4). -/
def Obligations.FetchIsBigEndianAndBounded : Prop :=
  ∀ (s : State) (rest : List Command), s.issuesStep rest → s.mode = .running →
    let u : State := { s with schedule := rest, fresh := false }
    (s.pc.toNat < 0xFFF →
      ∃ op : Word, op.toNat = (s.readMem s.pc.toNat).toNat * 256 + (s.readMem (s.pc.toNat + 1)).toNat ∧
        step s = match decode op with
          | .ok i => exec i u
          | .error _ => .next { u with halted := true, err := some ⟨.unrecognizedOpcode, s.pc, some op⟩ }) ∧
    (s.pc.toNat ≥ 0xFFF →
      step s = .next { u with halted := true, err := some ⟨.memoryOutOfRange, s.pc, none⟩ })

/-- R101: a `STEP` in mode Halted changes nothing (D21). -/
def Obligations.HaltedStepChangesNothing : Prop :=
  ∀ (s : State) (rest : List Command), s.issuesStep rest → s.mode = .halted →
    step s = .next { s with schedule := rest, fresh := false }

/-- R213: a `STEP` in mode AwaitingKey gives the waiting register the lowest key that is down and ends the wait;
with no key down it changes nothing. It fetches and executes nothing (D16). -/
def Obligations.KeyScanTakesLowestKey : Prop :=
  ∀ (s : State) (rest : List Command), s.issuesStep rest → s.mode = .awaitingKey →
    (∀ k : Key, s.key[k] = true → (∀ j : Key, j < k → s.key[j] = false) →
      ∃ t : State, step s = .next t ∧
        (∀ r, t.readV r = if r = s.waitReg then BitVec.ofNat 8 k.val else s.readV r) ∧
        t = { s with v := t.v, waitKey := false, schedule := rest, fresh := false }) ∧
    ((∀ k : Key, s.key[k] = false) → step s = .next { s with schedule := rest, fresh := false })

/-- R256, R258: a `STEP` in mode Running halts exactly when fetch, decoding or the instruction's own check
raises an error, and then `halted` and `err` alone have changed (D6, D30). -/
def Obligations.FatalErrorEntryIsPrecise : Prop :=
  ∀ (s : State) (rest : List Command), s.issuesStep rest → s.mode = .running →
    (∀ (code : ErrorCode) (op : Option Word), stepError s = some (code, op) →
      step s = .next { s with halted := true, err := some ⟨code, s.pc, op⟩, schedule := rest, fresh := false }) ∧
    (stepError s = none → ∃ t : State, step s = .next t ∧ t.halted = false ∧ t.err = s.err)

/-- R38, R40, R250: a `STEP` that raises an error shows `halted` and the record with the error's number, `PC` and
the word, or no word where the fetch failed; the numbers 1 to 6 are those of R250's table (D23). -/
def Obligations.RaisedErrorIsReported : Prop :=
  ∀ (s : State) (rest : List Command) (code : ErrorCode) (op : Option Word),
    s.issuesStep rest → s.mode = .running → stepError s = some (code, op) →
    ∃ (t : State) (n : Nat), step s = .next t ∧ t.outputs.halted = true ∧ t.outputs.err = some ⟨n, s.pc, op⟩ ∧
      (n, code) ∈ [(1, ErrorCode.unrecognizedOpcode), (2, .unsupportedMachineRoutine), (3, .memoryOutOfRange),
        (4, .stackOverflow), (5, .stackUnderflow), (6, .keyIndexOutOfRange)] ∧
      (op = none ↔ s.pc.toNat ≥ 0xFFF)

/-- No instruction stops the model: every one has a next state in every state. -/
def Obligations.EveryInstructionHasNextState : Prop := ∀ (i : Instr) (s : State), ∃ t : State, exec i s = .next t

/-- A step answers a next state but for a `LOAD` outside its precondition, which is refused (R232, U6). -/
def Obligations.OnlyLoadIsRefused : Prop :=
  ∀ s : State,
    ((∃ t : State, step s = .next t) ∧
      ∀ (bytes : List Byte) (rest : List Command), s.schedule = .load bytes :: rest →
        s.fresh = true ∧ bytes.length ≤ 3584) ∨
    (∃ (bytes : List Byte) (rest : List Command), s.schedule = .load bytes :: rest ∧
      ((s.fresh = false ∧ step s = .refused .loadNotAfterReset) ∨
       (s.fresh = true ∧ bytes.length > 3584 ∧ step s = .refused .loadTooLong)))

/-- R260: only `RESET` leaves mode Halted; under any other command the machine stays halted with the error
record it has, and `PC`, registers, index, stack, memory, display and timers as they are (D21). -/
def Obligations.OnlyResetLeavesHalted : Prop :=
  ∀ s t : State, s.halted = true → s.fresh = false → step s = .next t →
    (∃ rest, s.schedule = .reset :: rest) ∨
    (t.halted = true ∧ t.err = s.err ∧ t.pc = s.pc ∧ t.v = s.v ∧ t.i = s.i ∧ t.sp = s.sp ∧ t.stack = s.stack ∧
      t.dt = s.dt ∧ t.st = s.st ∧ t.mem = s.mem ∧ t.px = s.px)

/-- R218, the rows of mode AwaitingKey: the wait ends by `RESET`, or by a `STEP` that finds a key down; under any
other command, and under a `STEP` that finds none, it goes on. `PC` stays until a `RESET` (D16, D22). -/
def Obligations.KeyWaitEndsOnlyByKeyOrReset : Prop :=
  ∀ s t : State, s.mode = .awaitingKey → step s = .next t →
    (∃ rest, s.schedule = .reset :: rest ∧ t.mode = .running) ∨
    (t.pc = s.pc ∧
      (t.mode = .running ↔ (∃ rest, s.issuesStep rest) ∧ ∃ k : Key, s.key[k] = true) ∧
      (t.mode = .running ∨ t.mode = .awaitingKey))

/-! Control transfer -/

/-- R120, R255: `00EE` pops the last return address into `PC`; on an empty stack it raises `StackUnderflow` (D7). -/
def Obligations.ReturnPopsStack : Prop :=
  ∀ s : State,
    (0 < s.sp.val → ∃ t : State, exec .ret s = .next t ∧ t.sp.val + 1 = s.sp.val ∧
      (∀ j : Fin 16, j.val + 1 = s.sp.val → t.pc = s.stack[j]) ∧ t = { s with pc := t.pc, sp := t.sp }) ∧
    (s.sp.val = 0 → RaisesFatal .ret s .stackUnderflow)

/-- R123, R254: `2NNN` pushes the address past itself and jumps; on a full stack it raises `StackOverflow` (D7). -/
def Obligations.CallPushesReturnAddress : Prop :=
  ∀ (nnn : Addr) (s : State),
    (s.sp.val < 16 → ∃ t : State, exec (.call nnn) s = .next t ∧ t.sp.val = s.sp.val + 1 ∧
      t.pc.toNat = nnn.toNat ∧ (∀ j : Fin 16, t.stack[j] = if j.val = s.sp.val then s.pc + 2 else s.stack[j]) ∧
      t = { s with pc := t.pc, sp := t.sp, stack := t.stack }) ∧
    (s.sp.val = 16 → RaisesFatal (.call nnn) s .stackOverflow)

/-- A call and the return right after it come back to the instruction after the call with the stack as deep as
before (R120, R123; document §8). -/
def Obligations.CallThenReturn : Prop :=
  ∀ (nnn : Addr) (s : State), s.sp.val < 16 →
    ∃ t u : State, exec (.call nnn) s = .next t ∧ exec .ret t = .next u ∧
      u = { s with pc := s.pc + 2, stack := u.stack } ∧
      ∀ j : Fin 16, j.val < s.sp.val → u.stack[j] = s.stack[j]

/-- R122, R124: the jumps store their target unmasked and unchecked (D32). -/
def Obligations.JumpsSetPc : Prop :=
  ∀ (nnn : Addr) (s : State),
    (∃ t : State, exec (.jp nnn) s = .next t ∧ t.pc.toNat = nnn.toNat ∧ t = { s with pc := t.pc }) ∧
    (∃ t : State, exec (.jpV0 nnn) s = .next t ∧ t.pc.toNat = (s.readV 0).toNat + nnn.toNat ∧
      t = { s with pc := t.pc })

/-- R121, R252: `0NNN` always raises `UnsupportedMachineRoutine`, recording its own address and its word, and the
output `err` shows `(2, pc0, op)`. -/
def Obligations.MachineRoutineIsFatal : Prop :=
  ∀ (nnn : Addr) (s : State), ∃ (op : Word) (t : State), op.toNat = nnn.toNat ∧ exec (.sys nnn) s = .next t ∧
    t = { s with halted := true, err := some ⟨.unsupportedMachineRoutine, s.pc, some op⟩ } ∧
    t.outputs.err = some ⟨2, s.pc, some op⟩

/-- R125 to R128: a skip that is taken commits `PC + 4`, one that is not `PC + 2`; nothing else changes. -/
def Obligations.SkipsCommitPc : Prop :=
  ∀ (x y : Nibble) (nn : Byte) (s : State),
    exec (.seImm x nn) s = .next { s with pc := if s.readV x = nn then s.pc + 4 else s.pc + 2 } ∧
    exec (.sneImm x nn) s = .next { s with pc := if s.readV x ≠ nn then s.pc + 4 else s.pc + 2 } ∧
    exec (.seReg x y) s = .next { s with pc := if s.readV x = s.readV y then s.pc + 4 else s.pc + 2 } ∧
    exec (.sneReg x y) s = .next { s with pc := if s.readV x ≠ s.readV y then s.pc + 4 else s.pc + 2 }

/-! Register loads and the ALU -/

/-- R141, R142: load and add immediate; the sum is taken modulo 256 and no flag is written. -/
def Obligations.ImmediateFormsWriteNoFlag : Prop :=
  ∀ (x : Nibble) (nn : Byte) (s : State),
    CompletesWithRegs (.ldImm x nn) s (fun r => if r = x then nn else s.readV r) ∧
    CompletesWithRegs (.addImm x nn) s
      (fun r => if r = x then BitVec.ofNat 8 (((s.readV x).toNat + nn.toNat) % 256) else s.readV r)

/-- R143 to R146: assign, OR, AND, XOR; `VF` changes only as the destination (D12). -/
def Obligations.LogicFormsWriteNoFlag : Prop :=
  ∀ (x y : Nibble) (s : State),
    CompletesWithRegs (.ldReg x y) s (fun r => if r = x then s.readV y else s.readV r) ∧
    CompletesWithRegs (.orReg x y) s (fun r => if r = x then s.readV x ||| s.readV y else s.readV r) ∧
    CompletesWithRegs (.andReg x y) s (fun r => if r = x then s.readV x &&& s.readV y else s.readV r) ∧
    CompletesWithRegs (.xorReg x y) s (fun r => if r = x then s.readV x ^^^ s.readV y else s.readV r)

/-- R147, R140: add modulo 256; `VF` is the carry, and the flag wins when `x` is `F` (D11). -/
def Obligations.AddSetsCarry : Prop :=
  ∀ (x y : Nibble) (s : State),
    let a := (s.readV x).toNat
    let b := (s.readV y).toNat
    CompletesWithRegs (.addReg x y) s fun r =>
      if r = 0xF then (if a + b > 255 then 1 else 0)
      else if r = x then BitVec.ofNat 8 ((a + b) % 256) else s.readV r

/-- R148, R150, R140: subtract and reverse subtract modulo 256; `VF` is 1 when there is no borrow, from the
operands as read, and the flag wins when `x` is `F` (D11). -/
def Obligations.SubtractionsSetNoBorrow : Prop :=
  ∀ (x y : Nibble) (s : State),
    let a := (s.readV x).toNat
    let b := (s.readV y).toNat
    (CompletesWithRegs (.subReg x y) s fun r =>
      if r = 0xF then (if a ≥ b then 1 else 0)
      else if r = x then BitVec.ofInt 8 (((a : Int) - (b : Int)) % 256) else s.readV r) ∧
    (CompletesWithRegs (.subnReg x y) s fun r =>
      if r = 0xF then (if b ≥ a then 1 else 0)
      else if r = x then BitVec.ofInt 8 (((b : Int) - (a : Int)) % 256) else s.readV r)

/-- R149, R151, R91, R140: `VX` is shifted in place by one, whatever `y` is; `VF` is the bit shifted out, and the
flag wins when `x` is `F` (D10, D11). -/
def Obligations.ShiftsMoveOutBitToFlag : Prop :=
  ∀ (x y : Nibble) (s : State),
    let a := (s.readV x).toNat
    (CompletesWithRegs (.shrReg x y) s fun r =>
      if r = 0xF then BitVec.ofNat 8 (a % 2)
      else if r = x then BitVec.ofNat 8 (a / 2) else s.readV r) ∧
    (CompletesWithRegs (.shlReg x y) s fun r =>
      if r = 0xF then BitVec.ofNat 8 (a / 128)
      else if r = x then BitVec.ofNat 8 (a * 2 % 256) else s.readV r)

/-! Index register and memory -/

/-- R170 to R172: `I` is loaded, added to modulo 65536, or set to 5 times a register; nothing else changes
(D18, D19). -/
def Obligations.IndexForms : Prop :=
  ∀ (nnn : Addr) (x : Nibble) (s : State),
    (∃ t : State, exec (.ldI nnn) s = .next t ∧ t.i.toNat = nnn.toNat ∧ t = { s with i := t.i, pc := s.pc + 2 }) ∧
    (∃ t : State, exec (.addI x) s = .next t ∧ t.i.toNat = (s.i.toNat + (s.readV x).toNat) % 65536 ∧
      t = { s with i := t.i, pc := s.pc + 2 }) ∧
    (∃ t : State, exec (.ldF x) s = .next t ∧ t.i.toNat = 5 * (s.readV x).toNat ∧
      t = { s with i := t.i, pc := s.pc + 2 })

/-- R172, R31: while memory below `0x050` holds the parameter `FONT`, whatever its bytes, `FX29` with `VX` a digit
points `I` at the five bytes of that digit's glyph. -/
def Obligations.IndexPointsAtGlyph : Prop :=
  ∀ (x : Nibble) (s : State) (hd : (s.readV x).toNat < 16), (∀ (a : Nat) (h : a < 80), s.readMem a = s.font[a]) →
    ∃ t : State, exec (.ldF x) s = .next t ∧
      ∀ (j : Nat) (hj : j < 5), t.readMem (t.i.toNat + j) = s.font[5 * (s.readV x).toNat + j]

/-- R173: `FX33` stores the three decimal digits at `I` upward and touches no other byte, `I` and the registers
unchanged; out of range it raises `MemoryOutOfRange` (D6, D20). -/
def Obligations.DecimalDigitsAreStored : Prop :=
  ∀ (x : Nibble) (s : State), Memory.wf s.font s.mem = true →
    (s.i.toNat ≤ 4093 → ∃ t : State, exec (.ldB x) s = .next t ∧
      (t.readMem s.i.toNat).toNat = (s.readV x).toNat / 100 ∧
      (t.readMem (s.i.toNat + 1)).toNat = (s.readV x).toNat / 10 % 10 ∧
      (t.readMem (s.i.toNat + 2)).toNat = (s.readV x).toNat % 10 ∧
      (∀ a : Nat, a < s.i.toNat ∨ s.i.toNat + 2 < a → t.readMem a = s.readMem a) ∧
      t = { s with mem := t.mem, pc := s.pc + 2 }) ∧
    (s.i.toNat > 4093 → RaisesFatal (.ldB x) s .memoryOutOfRange)

/-- R174: `FX55` stores `V0` to `VX` at `I` upward and touches no other byte, `I` and the registers unchanged;
out of range it raises `MemoryOutOfRange` (D6, D20). -/
def Obligations.RegistersAreStored : Prop :=
  ∀ (x : Nibble) (s : State), Memory.wf s.font s.mem = true →
    (s.i.toNat + x.toNat ≤ 4095 → ∃ t : State, exec (.stRegs x) s = .next t ∧
      (∀ j : Nibble, j.toNat ≤ x.toNat → t.readMem (s.i.toNat + j.toNat) = s.readV j) ∧
      (∀ a : Nat, a < s.i.toNat ∨ s.i.toNat + x.toNat < a → t.readMem a = s.readMem a) ∧
      t = { s with mem := t.mem, pc := s.pc + 2 }) ∧
    (s.i.toNat + x.toNat > 4095 → RaisesFatal (.stRegs x) s .memoryOutOfRange)

/-- R175: `FX65` loads `V0` to `VX` from `I` upward, the registers above and `I` unchanged; out of range it
raises `MemoryOutOfRange` and loads none (D6, D20). -/
def Obligations.RegistersAreLoaded : Prop :=
  ∀ (x : Nibble) (s : State),
    (s.i.toNat + x.toNat ≤ 4095 → CompletesWithRegs (.ldRegs x) s fun r =>
      if r.toNat ≤ x.toNat then s.readMem (s.i.toNat + r.toNat) else s.readV r) ∧
    (s.i.toNat + x.toNat > 4095 → RaisesFatal (.ldRegs x) s .memoryOutOfRange)

/-- Storing `V0` to `VX` and loading them back from the same address, whatever the registers were made in
between, gives the values stored (R174, R175; document §8). -/
def Obligations.StoreThenLoadGivesRegistersBack : Prop :=
  ∀ (x : Nibble) (s : State) (w : Vector Byte 16), Memory.wf s.font s.mem = true → s.i.toNat + x.toNat ≤ 4095 →
    ∃ t u : State, exec (.stRegs x) s = .next t ∧ exec (.ldRegs x) { t with v := w } = .next u ∧
      (∀ r : Nibble, r.toNat ≤ x.toNat → u.readV r = s.readV r) ∧ u.i = s.i ∧ u.mem = t.mem

/-- A store is seen by the very next fetch (R69, R63): `FX55` with `I = next` plants the word whose high byte is
`V0` and whose low byte is `V1`. -/
def Obligations.StoredWordIsFetchedNext : Prop :=
  ∀ (x : Nibble) (s : State), Memory.wf s.font s.mem = true → 1 ≤ x.toNat → s.i = s.pc + 2 → s.i.toNat + x.toNat ≤ 4095 →
    ∃ t : State, exec (.stRegs x) s = .next t ∧ wordAtPc t = wordOfBytes (s.readV 0) (s.readV 1)

/-! Display -/

/-- R190: `00E0` clears every pixel and marks the display changed; nothing else but `PC` changes. -/
def Obligations.ClearDisplay : Prop :=
  ∀ s : State, ∃ t : State, exec .cls s = .next t ∧ (∀ (c : Fin 64) (r : Fin 32), t.pixel c r = false) ∧
    t = { s with px := t.px, changed := true, pc := s.pc + 2 }

/-- R193, R194: `DXYN` XORs the pixels its set bits meet, clipped at the edges; `VF` says whether one of them
went from 1 to 0; the display is marked changed; out of range it raises `MemoryOutOfRange`, and `N = 0` never does
(D6, D13, D20). -/
def Obligations.DrawXorsSprite : Prop :=
  ∀ (x y n : Nibble) (s : State),
    (n.toNat = 0 ∨ s.i.toNat + n.toNat ≤ 4096 → ∃ t : State, exec (.drw x y n) s = .next t ∧
      (∀ (c : Fin 64) (r : Fin 32), t.pixel c r = (s.pixel c r ^^ spriteBit s x y n c r)) ∧
      ((∃ (c : Fin 64) (r : Fin 32), spriteBit s x y n c r = true ∧ s.pixel c r = true) → t.readV 0xF = 1) ∧
      ((∀ (c : Fin 64) (r : Fin 32), spriteBit s x y n c r = true → s.pixel c r = false) → t.readV 0xF = 0) ∧
      (∀ r : Nibble, r ≠ 0xF → t.readV r = s.readV r) ∧
      t = { s with px := t.px, changed := true, v := t.v, pc := s.pc + 2 }) ∧
    (0 < n.toNat ∧ s.i.toNat + n.toNat > 4096 → RaisesFatal (.drw x y n) s .memoryOutOfRange)

/-- Drawing the same sprite twice with the same registers restores every pixel, and the second draw collides
exactly when a set bit meets a pixel that was clear before the first (R193, R194; so on a clear display exactly
when some set bit lands on the grid, R195; log 15). -/
def Obligations.DrawTwiceRestoresDisplay : Prop :=
  ∀ (x y n : Nibble) (s : State), n.toNat = 0 ∨ s.i.toNat + n.toNat ≤ 4096 →
    ∃ t u : State, exec (.drw x y n) s = .next t ∧ exec (.drw x y n) { t with v := s.v } = .next u ∧
      (∀ (c : Fin 64) (r : Fin 32), u.pixel c r = s.pixel c r) ∧
      (u.readV 0xF = 1 ↔ ∃ (c : Fin 64) (r : Fin 32), spriteBit s x y n c r = true ∧ s.pixel c r = false)

/-! Keys, timers, random -/

/-- R210, R211, R257: `EX9E` skips on a pressed key, `EXA1` on a released one; a key index above 15 raises
`KeyIndexOutOfRange` (D14, D15). -/
def Obligations.KeySkips : Prop :=
  ∀ (x : Nibble) (s : State),
    (∀ k : Key, (s.readV x).toNat = k.val →
      exec (.skp x) s = .next { s with pc := if s.key[k] = true then s.pc + 4 else s.pc + 2 } ∧
      exec (.sknp x) s = .next { s with pc := if s.key[k] = false then s.pc + 4 else s.pc + 2 }) ∧
    ((s.readV x).toNat > 15 →
      RaisesFatal (.skp x) s .keyIndexOutOfRange ∧ RaisesFatal (.sknp x) s .keyIndexOutOfRange)

/-- R212: `FX0A` enters the key wait and moves `PC` on; it looks at no key and writes no register
(D16). -/
def Obligations.KeyWaitIsEntered : Prop :=
  ∀ (x : Nibble) (s : State), s.halted = false →
    ∃ t : State, exec (.ldVxK x) s = .next t ∧ t.mode = .awaitingKey ∧
      t = { s with waitKey := true, waitReg := x, pc := s.pc + 2 }

/-- R214 to R216: the delay timer is read, the timers are set, and the tone follows `ST` at once. -/
def Obligations.TimerAccess : Prop :=
  ∀ (x : Nibble) (s : State),
    CompletesWithRegs (.ldVxDt x) s (fun r => if r = x then s.dt else s.readV r) ∧
    exec (.ldDtVx x) s = .next { s with dt := s.readV x, pc := s.pc + 2 } ∧
    (∃ t : State, exec (.ldStVx x) s = .next t ∧ (t.outputs.tone = true ↔ s.readV x ≠ 0) ∧
      t = { s with st := s.readV x, pc := s.pc + 2 })

/-- R217: the register gets the drawn byte masked by `NN`, so 0 wherever `NN` is 0, and the next draw is another.
It holds whatever byte the free value `Config.rand` draws (log 4). -/
def Obligations.RandomIsMasked : Prop :=
  ∀ (x : Nibble) (nn : Byte) (s : State), ∃ t : State, exec (.rnd x nn) s = .next t ∧
    t.readV x = Config.rand s.draws &&& nn ∧
    (∀ b : Nat, nn.getLsbD b = false → (t.readV x).getLsbD b = false) ∧
    (∀ r : Nibble, r ≠ x → t.readV r = s.readV r) ∧
    t = { s with v := t.v, draws := s.draws + 1, pc := s.pc + 2 }

/-! Host commands -/

/-- R234: `TICK` counts both timers down to 0, in every mode but Halted, where it changes nothing (D21, D22). -/
def Obligations.TickCountsDown : Prop :=
  ∀ (s : State) (rest : List Command), s.schedule = .tick :: rest →
    ∃ t : State, step s = .next t ∧
      t.dt.toNat = (if s.halted = true then s.dt.toNat else s.dt.toNat - 1) ∧
      t.st.toNat = (if s.halted = true then s.st.toNat else s.st.toNat - 1) ∧
      t = { s with dt := t.dt, st := t.st, schedule := rest, fresh := false }

/-- R235, R236: the key commands set and clear one key in every mode; only `KEY_DOWN` sets `last_key` (D34). -/
def Obligations.KeyCommands : Prop :=
  ∀ (k : Key) (s : State) (rest : List Command),
    (s.schedule = .keyDown k :: rest → ∃ t : State, step s = .next t ∧
      (∀ j : Key, t.key[j] = if j = k then true else s.key[j]) ∧
      t = { s with key := t.key, lastKey := some k, schedule := rest, fresh := false }) ∧
    (s.schedule = .keyUp k :: rest → ∃ t : State, step s = .next t ∧
      (∀ j : Key, t.key[j] = if j = k then false else s.key[j]) ∧
      t = { s with key := t.key, schedule := rest, fresh := false })

/-- R237: `PRESENT` clears `changed` and changes no pixel, in every mode (D35). -/
def Obligations.PresentClearsChanged : Prop :=
  ∀ (s : State) (rest : List Command), s.schedule = .present :: rest →
    step s = .next { s with changed := false, schedule := rest, fresh := false }

/-- R280, R42: `RESET` gives every element its reset value, in every mode and for every `FONT`; the parameter
itself stays (every value but `PC` is D2, D3, D23 or D27, log 3; how `FONT` is held, log 2). -/
def Obligations.ResetGivesResetValues : Prop :=
  ∀ (s : State) (rest : List Command), s.schedule = .reset :: rest →
    ∃ t : State, step s = .next t ∧ t.mode = .running ∧ t.pc = 0x200 ∧ (∀ r : Nibble, t.readV r = 0) ∧
      t.i = 0 ∧ t.sp.val = 0 ∧ (∀ j : Fin 16, t.stack[j] = 0) ∧ t.dt = 0 ∧ t.st = 0 ∧
      t.font = s.font ∧ (∀ (a : Nat) (h : a < 80), t.readMem a = s.font[a]) ∧ (∀ a : Nat, 80 ≤ a → t.readMem a = 0) ∧
      (∀ (c : Fin 64) (r : Fin 32), t.pixel c r = false) ∧ t.changed = false ∧
      (∀ k : Key, t.key[k] = false) ∧ t.lastKey = none ∧ t.halted = false ∧ t.waitKey = false ∧
      t.waitReg = 0 ∧ t.err = none

/-- R232: `LOAD` directly after `RESET` puts its bytes at `0x200` upward and changes nothing else (D28; that it
comes directly after `RESET` is the model's `fresh`, log 6). -/
def Obligations.LoadCopiesProgram : Prop :=
  ∀ (s : State) (bytes : List Byte) (rest : List Command), s.Inv → s.schedule = .load bytes :: rest →
    s.fresh = true → bytes.length ≤ 3584 →
    ∃ t : State, step s = .next t ∧
      (∀ (j : Nat) (h : j < bytes.length), t.readMem (0x200 + j) = bytes[j]) ∧
      (∀ a : Nat, a < 0x200 → t.readMem a = s.readMem a) ∧
      (∀ a : Nat, 0x200 + bytes.length ≤ a → t.readMem a = 0) ∧
      t = { s with mem := t.mem, schedule := rest, fresh := false }

/-! Invariants -/

/-- The reset state satisfies the invariant of R43, for every `FONT` ("derived" there; the part about `fresh` is the
model's, log 6). -/
def Obligations.ResetStateSatisfiesInv : Prop := State.reset.Inv ∧ ∀ font : Font, (State.resetWith font).Inv

/-- Every command keeps the invariant of R43, from every state that meets it ("derived" in R43; the part about
`fresh` is the model's, log 6). -/
def Obligations.EveryStepKeepsInv : Prop := ∀ s t : State, s.Inv → step s = .next t → t.Inv

/-- R8, R31: the parameter `FONT` is fixed for the machine; no command changes it. -/
def Obligations.FontIsFixed : Prop := ∀ s t : State, step s = .next t → t.font = s.font

/-! Frames over all instructions, from the "written by" lists -/

/-- R21: an instruction changes no register but those it is listed to write. -/
def Obligations.RegistersFrame : Prop :=
  ∀ (i : Instr) (s t : State) (r : Nibble), exec i s = .next t → writesReg i r = false → t.readV r = s.readV r

/-- R60, R65: an instruction changes no byte of memory but those it stores to from `I` upward, and none at all
when it stores nothing. -/
def Obligations.MemoryFrame : Prop :=
  ∀ (i : Instr) (s t : State) (a : Nat), exec i s = .next t →
    ¬(s.i.toNat ≤ a ∧ a < s.i.toNat + storedBytes i) → t.readMem a = s.readMem a

/-- R32, R33: only `00E0` and `DXYN` change a pixel or set `changed`, and no instruction clears `changed`. -/
def Obligations.DisplayFrame : Prop :=
  ∀ (i : Instr) (s t : State), exec i s = .next t →
    (i ≠ .cls → (∀ x y n, i ≠ .drw x y n) →
      (∀ (c : Fin 64) (r : Fin 32), t.pixel c r = s.pixel c r) ∧ t.changed = s.changed) ∧
    (s.changed = true → t.changed = true)

/-- R26, R27: only `2NNN` and `00EE` change `SP`, and only `2NNN` writes a stack entry, the one at `SP`. -/
def Obligations.StackFrame : Prop :=
  ∀ (i : Instr) (s t : State), exec i s = .next t →
    ((∀ nnn, i ≠ .call nnn) → i ≠ .ret → t.sp = s.sp) ∧
    (∀ j : Fin 16, (∀ nnn, i = .call nnn → j.val ≠ s.sp.val) → t.stack[j] = s.stack[j])

/-- R23, R28, R29: `I` is written only by `ANNN`, `FX1E`, `FX29`, `DT` only by `FX15`, `ST` only by `FX18`. -/
def Obligations.IndexAndTimerFrame : Prop :=
  ∀ (i : Instr) (s t : State), exec i s = .next t →
    ((∀ nnn, i ≠ .ldI nnn) → (∀ x, i ≠ .addI x) → (∀ x, i ≠ .ldF x) → t.i = s.i) ∧
    ((∀ x, i ≠ .ldDtVx x) → t.dt = s.dt) ∧ ((∀ x, i ≠ .ldStVx x) → t.st = s.st)

/-- R34, R35, R37, R238: no instruction writes a key or `last_key`; only `FX0A` writes the key-wait sub-state;
only `CXNN` draws a byte; none touches the command port. -/
def Obligations.InputAndPortFrame : Prop :=
  ∀ (i : Instr) (s t : State), exec i s = .next t →
    t.key = s.key ∧ t.lastKey = s.lastKey ∧ t.schedule = s.schedule ∧ t.fresh = s.fresh ∧
    ((∀ x, i ≠ .ldVxK x) → t.waitKey = s.waitKey ∧ t.waitReg = s.waitReg) ∧
    ((∀ x nn, i ≠ .rnd x nn) → t.draws = s.draws)

/-- R238, the row of `STEP`: it writes neither a key nor `last_key`, clears nothing of `changed`, and never turns
the halted state back. -/
def Obligations.StepWritesNoKeyAndKeepsChanged : Prop :=
  ∀ (s t : State) (rest : List Command), s.issuesStep rest → step s = .next t →
    t.key = s.key ∧ t.lastKey = s.lastKey ∧ (s.changed = true → t.changed = true) ∧
    (s.halted = true → t.halted = true) ∧ t.schedule = rest

/-! Noninterference and the end of a run -/

/-- R108: no instruction but `CXNN` depends on the random input. -/
def Obligations.OnlyRandomReadsDraws : Prop :=
  ∀ (i : Instr) (s : State) (n : Nat), (∀ x nn, i ≠ .rnd x nn) →
    exec i { s with draws := n } = mapNext (fun t => { t with draws := n }) (exec i s)

/-- R35: no instruction reads `last_key`. -/
def Obligations.NoInstructionReadsLastKey : Prop :=
  ∀ (i : Instr) (s : State) (k : Option Key),
    exec i { s with lastKey := k } = mapNext (fun t => { t with lastKey := k }) (exec i s)

/-- R282: where the program has ended, a further `STEP` changes nothing (D29). -/
def Obligations.EndedIsFixedPoint : Prop :=
  ∀ (s : State) (rest : List Command), s.issuesStep rest → s.ended = true →
    step s = .next { s with schedule := rest, fresh := false }
end

