-- ==== Sys2Proof/Laws/Encoding.lean ====
section
/-! SUPPORT. Fields and formats of an instruction word as numbers (30_encoding.md R81, R82): with these, a claim
about a word is linear arithmetic. -/

namespace Sys2Proof

/-- Concatenation as a number, the left operand in the high bits (R10). -/
theorem toNat_append_eq {m n : Nat} (a : BitVec m) (b : BitVec n) :
    (a ++ b).toNat = a.toNat * 2 ^ n + b.toNat := by
  rw [BitVec.toNat_append, ← Nat.shiftLeft_add_eq_or_of_lt b.isLt, Nat.shiftLeft_eq]

theorem encodeAddr_toNat (c : Nibble) (a : Addr) : (encodeAddr c a).toNat = c.toNat * 4096 + a.toNat :=
  toNat_append_eq c a

theorem encodeRegImm_toNat (c x : Nibble) (b : Byte) :
    (encodeRegImm c x b).toNat = c.toNat * 4096 + x.toNat * 256 + b.toNat := by
  have h : (encodeRegImm c x b).toNat = (c.toNat * 2 ^ 4 + x.toNat) * 2 ^ 8 + b.toNat := by
    rw [← toNat_append_eq c x, ← toNat_append_eq (c ++ x) b]
    rfl
  rw [h]; ring

theorem encodeRegReg_toNat (c x y n : Nibble) :
    (encodeRegReg c x y n).toNat = c.toNat * 4096 + x.toNat * 256 + y.toNat * 16 + n.toNat := by
  have h : (encodeRegReg c x y n).toNat = ((c.toNat * 2 ^ 4 + x.toNat) * 2 ^ 4 + y.toNat) * 2 ^ 4 + n.toNat := by
    rw [← toNat_append_eq c x, ← toNat_append_eq (c ++ x) y, ← toNat_append_eq (c ++ x ++ y) n]
    rfl
  rw [h]; ring

/-- The word of two bytes (R63: `op = hi * 256 + lo`). -/
theorem wordOfBytes_toNat (hi lo : Byte) : (wordOfBytes hi lo).toNat = hi.toNat * 256 + lo.toNat :=
  toNat_append_eq hi lo

theorem fieldC_toNat (op : Word) : (fieldC op).toNat = op.toNat / 4096 := by
  have := op.isLt
  simp [fieldC, Nat.shiftRight_eq_div_pow]; omega

theorem fieldX_toNat (op : Word) : (fieldX op).toNat = op.toNat / 256 % 16 := by
  simp [fieldX, Nat.shiftRight_eq_div_pow]

theorem fieldY_toNat (op : Word) : (fieldY op).toNat = op.toNat / 16 % 16 := by
  simp [fieldY, Nat.shiftRight_eq_div_pow]

theorem fieldN_toNat (op : Word) : (fieldN op).toNat = op.toNat % 16 := by simp [fieldN]

theorem fieldNN_toNat (op : Word) : (fieldNN op).toNat = op.toNat % 256 := by simp [fieldNN]

theorem fieldNNN_toNat (op : Word) : (fieldNNN op).toNat = op.toNat % 4096 := by simp [fieldNNN]

/-! The fields of the encoder's formats. -/

@[simp] theorem fieldC_encodeAddr (c : Nibble) (a : Addr) : fieldC (encodeAddr c a) = c := by
  have := a.isLt
  apply BitVec.eq_of_toNat_eq; rw [fieldC_toNat, encodeAddr_toNat]; omega

@[simp] theorem fieldNNN_encodeAddr (c : Nibble) (a : Addr) : fieldNNN (encodeAddr c a) = a := by
  have := a.isLt
  apply BitVec.eq_of_toNat_eq; rw [fieldNNN_toNat, encodeAddr_toNat]; omega

@[simp] theorem fieldC_encodeRegImm (c x : Nibble) (b : Byte) : fieldC (encodeRegImm c x b) = c := by
  have := x.isLt; have := b.isLt
  apply BitVec.eq_of_toNat_eq; rw [fieldC_toNat, encodeRegImm_toNat]; omega

@[simp] theorem fieldX_encodeRegImm (c x : Nibble) (b : Byte) : fieldX (encodeRegImm c x b) = x := by
  have := x.isLt; have := b.isLt
  apply BitVec.eq_of_toNat_eq; rw [fieldX_toNat, encodeRegImm_toNat]; omega

@[simp] theorem fieldNN_encodeRegImm (c x : Nibble) (b : Byte) : fieldNN (encodeRegImm c x b) = b := by
  have := b.isLt
  apply BitVec.eq_of_toNat_eq; rw [fieldNN_toNat, encodeRegImm_toNat]; omega

@[simp] theorem fieldC_encodeRegReg (c x y n : Nibble) : fieldC (encodeRegReg c x y n) = c := by
  have := x.isLt; have := y.isLt; have := n.isLt
  apply BitVec.eq_of_toNat_eq; rw [fieldC_toNat, encodeRegReg_toNat]; omega

@[simp] theorem fieldX_encodeRegReg (c x y n : Nibble) : fieldX (encodeRegReg c x y n) = x := by
  have := x.isLt; have := y.isLt; have := n.isLt
  apply BitVec.eq_of_toNat_eq; rw [fieldX_toNat, encodeRegReg_toNat]; omega

@[simp] theorem fieldY_encodeRegReg (c x y n : Nibble) : fieldY (encodeRegReg c x y n) = y := by
  have := y.isLt; have := n.isLt
  apply BitVec.eq_of_toNat_eq; rw [fieldY_toNat, encodeRegReg_toNat]; omega

@[simp] theorem fieldN_encodeRegReg (c x y n : Nibble) : fieldN (encodeRegReg c x y n) = n := by
  have := n.isLt
  apply BitVec.eq_of_toNat_eq; rw [fieldN_toNat, encodeRegReg_toNat]; omega

/-! A word is its fields, in each of the formats. -/

theorem encodeAddr_fields (op : Word) : encodeAddr (fieldC op) (fieldNNN op) = op := by
  apply BitVec.eq_of_toNat_eq
  rw [encodeAddr_toNat, fieldC_toNat, fieldNNN_toNat]; omega

theorem encodeRegImm_fields (op : Word) : encodeRegImm (fieldC op) (fieldX op) (fieldNN op) = op := by
  apply BitVec.eq_of_toNat_eq
  rw [encodeRegImm_toNat, fieldC_toNat, fieldX_toNat, fieldNN_toNat]; omega

theorem encodeRegReg_fields (op : Word) :
    encodeRegReg (fieldC op) (fieldX op) (fieldY op) (fieldN op) = op := by
  apply BitVec.eq_of_toNat_eq
  rw [encodeRegReg_toNat, fieldC_toNat, fieldX_toNat, fieldY_toNat, fieldN_toNat]; omega

/-! The two bytes of a word, and the word of the two bytes (R63). -/

theorem hiByte_toNat (op : Word) : (hiByte op).toNat = op.toNat / 256 := by
  have := op.isLt
  simp [hiByte, Nat.shiftRight_eq_div_pow]; omega

theorem loByte_toNat (op : Word) : (loByte op).toNat = op.toNat % 256 := by simp [loByte]

@[simp] theorem wordOfBytes_hiByte_loByte (op : Word) : wordOfBytes (hiByte op) (loByte op) = op := by
  apply BitVec.eq_of_toNat_eq
  rw [wordOfBytes_toNat, hiByte_toNat, loByte_toNat]; omega

/-! Masks of the opcode map on the encoder's formats: the class, the class and low nibble, the class and low byte. -/

theorem encodeAddr_and (c m : Nibble) (a k : Addr) :
    encodeAddr c a &&& encodeAddr m k = encodeAddr (c &&& m) (a &&& k) := BitVec.and_append

theorem encodeRegImm_and (c m x k : Nibble) (b l : Byte) :
    encodeRegImm c x b &&& encodeRegImm m k l = encodeRegImm (c &&& m) (x &&& k) (b &&& l) := by
  have h : (c ++ x) &&& (m ++ k) = (c &&& m) ++ (x &&& k) := BitVec.and_append
  calc encodeRegImm c x b &&& encodeRegImm m k l
      = ((c ++ x) &&& (m ++ k)) ++ (b &&& l) := BitVec.and_append
    _ = _ := by rw [h]; rfl

theorem encodeRegReg_and (c m x k y l n o : Nibble) :
    encodeRegReg c x y n &&& encodeRegReg m k l o =
      encodeRegReg (c &&& m) (x &&& k) (y &&& l) (n &&& o) := by
  have h1 : (c ++ x) &&& (m ++ k) = (c &&& m) ++ (x &&& k) := BitVec.and_append
  have h2 : (c ++ x ++ y) &&& (m ++ k ++ l) = ((c ++ x) &&& (m ++ k)) ++ (y &&& l) := BitVec.and_append
  calc encodeRegReg c x y n &&& encodeRegReg m k l o
      = ((c ++ x ++ y) &&& (m ++ k ++ l)) ++ (n &&& o) := BitVec.and_append
    _ = _ := by rw [h2, h1]; rfl

/-- The class alone (mask `F000`). -/
theorem encodeAddr_class (c : Nibble) (a : Addr) : encodeAddr c a &&& 0xF000#16 = encodeAddr c 0 := by
  rw [show (0xF000#16 : Word) = encodeAddr 0xF#4 0#12 by decide, encodeAddr_and]
  congr 1
  · exact BitVec.and_allOnes
  · exact BitVec.and_zero

theorem encodeRegImm_class (c x : Nibble) (b : Byte) :
    encodeRegImm c x b &&& 0xF000#16 = encodeRegImm c 0 0 := by
  rw [show (0xF000#16 : Word) = encodeRegImm 0xF#4 0#4 0#8 by decide, encodeRegImm_and]
  congr 1
  · exact BitVec.and_allOnes
  · exact BitVec.and_zero
  · exact BitVec.and_zero

/-- The class and the low byte (mask `F0FF`). -/
theorem encodeRegImm_sub (c x : Nibble) (b : Byte) :
    encodeRegImm c x b &&& 0xF0FF#16 = encodeRegImm c 0 b := by
  rw [show (0xF0FF#16 : Word) = encodeRegImm 0xF#4 0#4 0xFF#8 by decide, encodeRegImm_and]
  congr 1
  · exact BitVec.and_allOnes
  · exact BitVec.and_zero
  · exact BitVec.and_allOnes

/-- The class and the low nibble (mask `F00F`). -/
theorem encodeRegReg_sub (c x y n : Nibble) :
    encodeRegReg c x y n &&& 0xF00F#16 = encodeRegReg c 0 0 n := by
  rw [show (0xF00F#16 : Word) = encodeRegReg 0xF#4 0#4 0#4 0xF#4 by decide, encodeRegReg_and]
  congr 1
  · exact BitVec.and_allOnes
  · exact BitVec.and_zero
  · exact BitVec.and_zero
  · exact BitVec.and_allOnes

theorem encodeRegReg_class (c x y n : Nibble) :
    encodeRegReg c x y n &&& 0xF000#16 = encodeRegReg c 0 0 0 := by
  rw [show (0xF000#16 : Word) = encodeRegReg 0xF#4 0#4 0#4 0#4 by decide, encodeRegReg_and]
  congr 1
  · exact BitVec.and_allOnes
  · exact BitVec.and_zero
  · exact BitVec.and_zero
  · exact BitVec.and_zero

end Sys2Proof
end

