-- ==== Sys2Proof/Laws/State.lean ====
section
/-! SUPPORT. One lemma per field per named update of State, true by rfl: what each update writes and what it leaves. -/

namespace Sys2Proof.Machine

variable (s : State)

/-! `State.writeV` -/

@[simp] theorem State.writeV_v (x : Nibble) (b : Byte) : (s.writeV x b).v = s.v.set x.toNat b x.isLt := rfl
@[simp] theorem State.writeV_i (x : Nibble) (b : Byte) : (s.writeV x b).i = s.i := rfl
@[simp] theorem State.writeV_pc (x : Nibble) (b : Byte) : (s.writeV x b).pc = s.pc := rfl
@[simp] theorem State.writeV_sp (x : Nibble) (b : Byte) : (s.writeV x b).sp = s.sp := rfl
@[simp] theorem State.writeV_stack (x : Nibble) (b : Byte) : (s.writeV x b).stack = s.stack := rfl
@[simp] theorem State.writeV_dt (x : Nibble) (b : Byte) : (s.writeV x b).dt = s.dt := rfl
@[simp] theorem State.writeV_st (x : Nibble) (b : Byte) : (s.writeV x b).st = s.st := rfl
@[simp] theorem State.writeV_mem (x : Nibble) (b : Byte) : (s.writeV x b).mem = s.mem := rfl
@[simp] theorem State.writeV_px (x : Nibble) (b : Byte) : (s.writeV x b).px = s.px := rfl
@[simp] theorem State.writeV_changed (x : Nibble) (b : Byte) : (s.writeV x b).changed = s.changed := rfl
@[simp] theorem State.writeV_key (x : Nibble) (b : Byte) : (s.writeV x b).key = s.key := rfl
@[simp] theorem State.writeV_lastKey (x : Nibble) (b : Byte) : (s.writeV x b).lastKey = s.lastKey := rfl
@[simp] theorem State.writeV_halted (x : Nibble) (b : Byte) : (s.writeV x b).halted = s.halted := rfl
@[simp] theorem State.writeV_waitKey (x : Nibble) (b : Byte) : (s.writeV x b).waitKey = s.waitKey := rfl
@[simp] theorem State.writeV_waitReg (x : Nibble) (b : Byte) : (s.writeV x b).waitReg = s.waitReg := rfl
@[simp] theorem State.writeV_err (x : Nibble) (b : Byte) : (s.writeV x b).err = s.err := rfl
@[simp] theorem State.writeV_font (x : Nibble) (b : Byte) : (s.writeV x b).font = s.font := rfl
@[simp] theorem State.writeV_draws (x : Nibble) (b : Byte) : (s.writeV x b).draws = s.draws := rfl
@[simp] theorem State.writeV_schedule (x : Nibble) (b : Byte) : (s.writeV x b).schedule = s.schedule := rfl
@[simp] theorem State.writeV_fresh (x : Nibble) (b : Byte) : (s.writeV x b).fresh = s.fresh := rfl

/-! `State.setRegs` -/

@[simp] theorem State.setRegs_v (w : Vector Byte 16) : (s.setRegs w).v = w := rfl
@[simp] theorem State.setRegs_i (w : Vector Byte 16) : (s.setRegs w).i = s.i := rfl
@[simp] theorem State.setRegs_pc (w : Vector Byte 16) : (s.setRegs w).pc = s.pc := rfl
@[simp] theorem State.setRegs_sp (w : Vector Byte 16) : (s.setRegs w).sp = s.sp := rfl
@[simp] theorem State.setRegs_stack (w : Vector Byte 16) : (s.setRegs w).stack = s.stack := rfl
@[simp] theorem State.setRegs_dt (w : Vector Byte 16) : (s.setRegs w).dt = s.dt := rfl
@[simp] theorem State.setRegs_st (w : Vector Byte 16) : (s.setRegs w).st = s.st := rfl
@[simp] theorem State.setRegs_mem (w : Vector Byte 16) : (s.setRegs w).mem = s.mem := rfl
@[simp] theorem State.setRegs_px (w : Vector Byte 16) : (s.setRegs w).px = s.px := rfl
@[simp] theorem State.setRegs_changed (w : Vector Byte 16) : (s.setRegs w).changed = s.changed := rfl
@[simp] theorem State.setRegs_key (w : Vector Byte 16) : (s.setRegs w).key = s.key := rfl
@[simp] theorem State.setRegs_lastKey (w : Vector Byte 16) : (s.setRegs w).lastKey = s.lastKey := rfl
@[simp] theorem State.setRegs_halted (w : Vector Byte 16) : (s.setRegs w).halted = s.halted := rfl
@[simp] theorem State.setRegs_waitKey (w : Vector Byte 16) : (s.setRegs w).waitKey = s.waitKey := rfl
@[simp] theorem State.setRegs_waitReg (w : Vector Byte 16) : (s.setRegs w).waitReg = s.waitReg := rfl
@[simp] theorem State.setRegs_err (w : Vector Byte 16) : (s.setRegs w).err = s.err := rfl
@[simp] theorem State.setRegs_font (w : Vector Byte 16) : (s.setRegs w).font = s.font := rfl
@[simp] theorem State.setRegs_draws (w : Vector Byte 16) : (s.setRegs w).draws = s.draws := rfl
@[simp] theorem State.setRegs_schedule (w : Vector Byte 16) : (s.setRegs w).schedule = s.schedule := rfl
@[simp] theorem State.setRegs_fresh (w : Vector Byte 16) : (s.setRegs w).fresh = s.fresh := rfl

/-! `State.setPc` -/

@[simp] theorem State.setPc_v (p : Word) : (s.setPc p).v = s.v := rfl
@[simp] theorem State.setPc_i (p : Word) : (s.setPc p).i = s.i := rfl
@[simp] theorem State.setPc_pc (p : Word) : (s.setPc p).pc = p := rfl
@[simp] theorem State.setPc_sp (p : Word) : (s.setPc p).sp = s.sp := rfl
@[simp] theorem State.setPc_stack (p : Word) : (s.setPc p).stack = s.stack := rfl
@[simp] theorem State.setPc_dt (p : Word) : (s.setPc p).dt = s.dt := rfl
@[simp] theorem State.setPc_st (p : Word) : (s.setPc p).st = s.st := rfl
@[simp] theorem State.setPc_mem (p : Word) : (s.setPc p).mem = s.mem := rfl
@[simp] theorem State.setPc_px (p : Word) : (s.setPc p).px = s.px := rfl
@[simp] theorem State.setPc_changed (p : Word) : (s.setPc p).changed = s.changed := rfl
@[simp] theorem State.setPc_key (p : Word) : (s.setPc p).key = s.key := rfl
@[simp] theorem State.setPc_lastKey (p : Word) : (s.setPc p).lastKey = s.lastKey := rfl
@[simp] theorem State.setPc_halted (p : Word) : (s.setPc p).halted = s.halted := rfl
@[simp] theorem State.setPc_waitKey (p : Word) : (s.setPc p).waitKey = s.waitKey := rfl
@[simp] theorem State.setPc_waitReg (p : Word) : (s.setPc p).waitReg = s.waitReg := rfl
@[simp] theorem State.setPc_err (p : Word) : (s.setPc p).err = s.err := rfl
@[simp] theorem State.setPc_font (p : Word) : (s.setPc p).font = s.font := rfl
@[simp] theorem State.setPc_draws (p : Word) : (s.setPc p).draws = s.draws := rfl
@[simp] theorem State.setPc_schedule (p : Word) : (s.setPc p).schedule = s.schedule := rfl
@[simp] theorem State.setPc_fresh (p : Word) : (s.setPc p).fresh = s.fresh := rfl

/-! `State.setI` -/

@[simp] theorem State.setI_v (a : Word) : (s.setI a).v = s.v := rfl
@[simp] theorem State.setI_i (a : Word) : (s.setI a).i = a := rfl
@[simp] theorem State.setI_pc (a : Word) : (s.setI a).pc = s.pc := rfl
@[simp] theorem State.setI_sp (a : Word) : (s.setI a).sp = s.sp := rfl
@[simp] theorem State.setI_stack (a : Word) : (s.setI a).stack = s.stack := rfl
@[simp] theorem State.setI_dt (a : Word) : (s.setI a).dt = s.dt := rfl
@[simp] theorem State.setI_st (a : Word) : (s.setI a).st = s.st := rfl
@[simp] theorem State.setI_mem (a : Word) : (s.setI a).mem = s.mem := rfl
@[simp] theorem State.setI_px (a : Word) : (s.setI a).px = s.px := rfl
@[simp] theorem State.setI_changed (a : Word) : (s.setI a).changed = s.changed := rfl
@[simp] theorem State.setI_key (a : Word) : (s.setI a).key = s.key := rfl
@[simp] theorem State.setI_lastKey (a : Word) : (s.setI a).lastKey = s.lastKey := rfl
@[simp] theorem State.setI_halted (a : Word) : (s.setI a).halted = s.halted := rfl
@[simp] theorem State.setI_waitKey (a : Word) : (s.setI a).waitKey = s.waitKey := rfl
@[simp] theorem State.setI_waitReg (a : Word) : (s.setI a).waitReg = s.waitReg := rfl
@[simp] theorem State.setI_err (a : Word) : (s.setI a).err = s.err := rfl
@[simp] theorem State.setI_font (a : Word) : (s.setI a).font = s.font := rfl
@[simp] theorem State.setI_draws (a : Word) : (s.setI a).draws = s.draws := rfl
@[simp] theorem State.setI_schedule (a : Word) : (s.setI a).schedule = s.schedule := rfl
@[simp] theorem State.setI_fresh (a : Word) : (s.setI a).fresh = s.fresh := rfl

/-! `State.setStack` -/

@[simp] theorem State.setStack_v (k : Vector Word 16) (n : Fin 17) : (s.setStack k n).v = s.v := rfl
@[simp] theorem State.setStack_i (k : Vector Word 16) (n : Fin 17) : (s.setStack k n).i = s.i := rfl
@[simp] theorem State.setStack_pc (k : Vector Word 16) (n : Fin 17) : (s.setStack k n).pc = s.pc := rfl
@[simp] theorem State.setStack_sp (k : Vector Word 16) (n : Fin 17) : (s.setStack k n).sp = n := rfl
@[simp] theorem State.setStack_stack (k : Vector Word 16) (n : Fin 17) : (s.setStack k n).stack = k := rfl
@[simp] theorem State.setStack_dt (k : Vector Word 16) (n : Fin 17) : (s.setStack k n).dt = s.dt := rfl
@[simp] theorem State.setStack_st (k : Vector Word 16) (n : Fin 17) : (s.setStack k n).st = s.st := rfl
@[simp] theorem State.setStack_mem (k : Vector Word 16) (n : Fin 17) : (s.setStack k n).mem = s.mem := rfl
@[simp] theorem State.setStack_px (k : Vector Word 16) (n : Fin 17) : (s.setStack k n).px = s.px := rfl
@[simp] theorem State.setStack_changed (k : Vector Word 16) (n : Fin 17) : (s.setStack k n).changed = s.changed := rfl
@[simp] theorem State.setStack_key (k : Vector Word 16) (n : Fin 17) : (s.setStack k n).key = s.key := rfl
@[simp] theorem State.setStack_lastKey (k : Vector Word 16) (n : Fin 17) : (s.setStack k n).lastKey = s.lastKey := rfl
@[simp] theorem State.setStack_halted (k : Vector Word 16) (n : Fin 17) : (s.setStack k n).halted = s.halted := rfl
@[simp] theorem State.setStack_waitKey (k : Vector Word 16) (n : Fin 17) : (s.setStack k n).waitKey = s.waitKey := rfl
@[simp] theorem State.setStack_waitReg (k : Vector Word 16) (n : Fin 17) : (s.setStack k n).waitReg = s.waitReg := rfl
@[simp] theorem State.setStack_err (k : Vector Word 16) (n : Fin 17) : (s.setStack k n).err = s.err := rfl
@[simp] theorem State.setStack_font (k : Vector Word 16) (n : Fin 17) : (s.setStack k n).font = s.font := rfl
@[simp] theorem State.setStack_draws (k : Vector Word 16) (n : Fin 17) : (s.setStack k n).draws = s.draws := rfl
@[simp] theorem State.setStack_schedule (k : Vector Word 16) (n : Fin 17) : (s.setStack k n).schedule = s.schedule := rfl
@[simp] theorem State.setStack_fresh (k : Vector Word 16) (n : Fin 17) : (s.setStack k n).fresh = s.fresh := rfl

/-! `State.setDt` -/

@[simp] theorem State.setDt_v (b : Byte) : (s.setDt b).v = s.v := rfl
@[simp] theorem State.setDt_i (b : Byte) : (s.setDt b).i = s.i := rfl
@[simp] theorem State.setDt_pc (b : Byte) : (s.setDt b).pc = s.pc := rfl
@[simp] theorem State.setDt_sp (b : Byte) : (s.setDt b).sp = s.sp := rfl
@[simp] theorem State.setDt_stack (b : Byte) : (s.setDt b).stack = s.stack := rfl
@[simp] theorem State.setDt_dt (b : Byte) : (s.setDt b).dt = b := rfl
@[simp] theorem State.setDt_st (b : Byte) : (s.setDt b).st = s.st := rfl
@[simp] theorem State.setDt_mem (b : Byte) : (s.setDt b).mem = s.mem := rfl
@[simp] theorem State.setDt_px (b : Byte) : (s.setDt b).px = s.px := rfl
@[simp] theorem State.setDt_changed (b : Byte) : (s.setDt b).changed = s.changed := rfl
@[simp] theorem State.setDt_key (b : Byte) : (s.setDt b).key = s.key := rfl
@[simp] theorem State.setDt_lastKey (b : Byte) : (s.setDt b).lastKey = s.lastKey := rfl
@[simp] theorem State.setDt_halted (b : Byte) : (s.setDt b).halted = s.halted := rfl
@[simp] theorem State.setDt_waitKey (b : Byte) : (s.setDt b).waitKey = s.waitKey := rfl
@[simp] theorem State.setDt_waitReg (b : Byte) : (s.setDt b).waitReg = s.waitReg := rfl
@[simp] theorem State.setDt_err (b : Byte) : (s.setDt b).err = s.err := rfl
@[simp] theorem State.setDt_font (b : Byte) : (s.setDt b).font = s.font := rfl
@[simp] theorem State.setDt_draws (b : Byte) : (s.setDt b).draws = s.draws := rfl
@[simp] theorem State.setDt_schedule (b : Byte) : (s.setDt b).schedule = s.schedule := rfl
@[simp] theorem State.setDt_fresh (b : Byte) : (s.setDt b).fresh = s.fresh := rfl

/-! `State.setSt` -/

@[simp] theorem State.setSt_v (b : Byte) : (s.setSt b).v = s.v := rfl
@[simp] theorem State.setSt_i (b : Byte) : (s.setSt b).i = s.i := rfl
@[simp] theorem State.setSt_pc (b : Byte) : (s.setSt b).pc = s.pc := rfl
@[simp] theorem State.setSt_sp (b : Byte) : (s.setSt b).sp = s.sp := rfl
@[simp] theorem State.setSt_stack (b : Byte) : (s.setSt b).stack = s.stack := rfl
@[simp] theorem State.setSt_dt (b : Byte) : (s.setSt b).dt = s.dt := rfl
@[simp] theorem State.setSt_st (b : Byte) : (s.setSt b).st = b := rfl
@[simp] theorem State.setSt_mem (b : Byte) : (s.setSt b).mem = s.mem := rfl
@[simp] theorem State.setSt_px (b : Byte) : (s.setSt b).px = s.px := rfl
@[simp] theorem State.setSt_changed (b : Byte) : (s.setSt b).changed = s.changed := rfl
@[simp] theorem State.setSt_key (b : Byte) : (s.setSt b).key = s.key := rfl
@[simp] theorem State.setSt_lastKey (b : Byte) : (s.setSt b).lastKey = s.lastKey := rfl
@[simp] theorem State.setSt_halted (b : Byte) : (s.setSt b).halted = s.halted := rfl
@[simp] theorem State.setSt_waitKey (b : Byte) : (s.setSt b).waitKey = s.waitKey := rfl
@[simp] theorem State.setSt_waitReg (b : Byte) : (s.setSt b).waitReg = s.waitReg := rfl
@[simp] theorem State.setSt_err (b : Byte) : (s.setSt b).err = s.err := rfl
@[simp] theorem State.setSt_font (b : Byte) : (s.setSt b).font = s.font := rfl
@[simp] theorem State.setSt_draws (b : Byte) : (s.setSt b).draws = s.draws := rfl
@[simp] theorem State.setSt_schedule (b : Byte) : (s.setSt b).schedule = s.schedule := rfl
@[simp] theorem State.setSt_fresh (b : Byte) : (s.setSt b).fresh = s.fresh := rfl

/-! `State.setMem` -/

@[simp] theorem State.setMem_v (m : Memory) : (s.setMem m).v = s.v := rfl
@[simp] theorem State.setMem_i (m : Memory) : (s.setMem m).i = s.i := rfl
@[simp] theorem State.setMem_pc (m : Memory) : (s.setMem m).pc = s.pc := rfl
@[simp] theorem State.setMem_sp (m : Memory) : (s.setMem m).sp = s.sp := rfl
@[simp] theorem State.setMem_stack (m : Memory) : (s.setMem m).stack = s.stack := rfl
@[simp] theorem State.setMem_dt (m : Memory) : (s.setMem m).dt = s.dt := rfl
@[simp] theorem State.setMem_st (m : Memory) : (s.setMem m).st = s.st := rfl
@[simp] theorem State.setMem_mem (m : Memory) : (s.setMem m).mem = m := rfl
@[simp] theorem State.setMem_px (m : Memory) : (s.setMem m).px = s.px := rfl
@[simp] theorem State.setMem_changed (m : Memory) : (s.setMem m).changed = s.changed := rfl
@[simp] theorem State.setMem_key (m : Memory) : (s.setMem m).key = s.key := rfl
@[simp] theorem State.setMem_lastKey (m : Memory) : (s.setMem m).lastKey = s.lastKey := rfl
@[simp] theorem State.setMem_halted (m : Memory) : (s.setMem m).halted = s.halted := rfl
@[simp] theorem State.setMem_waitKey (m : Memory) : (s.setMem m).waitKey = s.waitKey := rfl
@[simp] theorem State.setMem_waitReg (m : Memory) : (s.setMem m).waitReg = s.waitReg := rfl
@[simp] theorem State.setMem_err (m : Memory) : (s.setMem m).err = s.err := rfl
@[simp] theorem State.setMem_font (m : Memory) : (s.setMem m).font = s.font := rfl
@[simp] theorem State.setMem_draws (m : Memory) : (s.setMem m).draws = s.draws := rfl
@[simp] theorem State.setMem_schedule (m : Memory) : (s.setMem m).schedule = s.schedule := rfl
@[simp] theorem State.setMem_fresh (m : Memory) : (s.setMem m).fresh = s.fresh := rfl

/-! `State.storeBytes` -/

@[simp] theorem State.storeBytes_v (a : Nat) (bs : List Byte) : (s.storeBytes a bs).v = s.v := rfl
@[simp] theorem State.storeBytes_i (a : Nat) (bs : List Byte) : (s.storeBytes a bs).i = s.i := rfl
@[simp] theorem State.storeBytes_pc (a : Nat) (bs : List Byte) : (s.storeBytes a bs).pc = s.pc := rfl
@[simp] theorem State.storeBytes_sp (a : Nat) (bs : List Byte) : (s.storeBytes a bs).sp = s.sp := rfl
@[simp] theorem State.storeBytes_stack (a : Nat) (bs : List Byte) : (s.storeBytes a bs).stack = s.stack := rfl
@[simp] theorem State.storeBytes_dt (a : Nat) (bs : List Byte) : (s.storeBytes a bs).dt = s.dt := rfl
@[simp] theorem State.storeBytes_st (a : Nat) (bs : List Byte) : (s.storeBytes a bs).st = s.st := rfl
@[simp] theorem State.storeBytes_mem (a : Nat) (bs : List Byte) : (s.storeBytes a bs).mem = Memory.writeBytes s.font s.mem a bs := rfl
@[simp] theorem State.storeBytes_px (a : Nat) (bs : List Byte) : (s.storeBytes a bs).px = s.px := rfl
@[simp] theorem State.storeBytes_changed (a : Nat) (bs : List Byte) : (s.storeBytes a bs).changed = s.changed := rfl
@[simp] theorem State.storeBytes_key (a : Nat) (bs : List Byte) : (s.storeBytes a bs).key = s.key := rfl
@[simp] theorem State.storeBytes_lastKey (a : Nat) (bs : List Byte) : (s.storeBytes a bs).lastKey = s.lastKey := rfl
@[simp] theorem State.storeBytes_halted (a : Nat) (bs : List Byte) : (s.storeBytes a bs).halted = s.halted := rfl
@[simp] theorem State.storeBytes_waitKey (a : Nat) (bs : List Byte) : (s.storeBytes a bs).waitKey = s.waitKey := rfl
@[simp] theorem State.storeBytes_waitReg (a : Nat) (bs : List Byte) : (s.storeBytes a bs).waitReg = s.waitReg := rfl
@[simp] theorem State.storeBytes_err (a : Nat) (bs : List Byte) : (s.storeBytes a bs).err = s.err := rfl
@[simp] theorem State.storeBytes_font (a : Nat) (bs : List Byte) : (s.storeBytes a bs).font = s.font := rfl
@[simp] theorem State.storeBytes_draws (a : Nat) (bs : List Byte) : (s.storeBytes a bs).draws = s.draws := rfl
@[simp] theorem State.storeBytes_schedule (a : Nat) (bs : List Byte) : (s.storeBytes a bs).schedule = s.schedule := rfl
@[simp] theorem State.storeBytes_fresh (a : Nat) (bs : List Byte) : (s.storeBytes a bs).fresh = s.fresh := rfl

/-! `State.setDisplay` -/

@[simp] theorem State.setDisplay_v (g : Vector DispRow 32) (c : Bool) : (s.setDisplay g c).v = s.v := rfl
@[simp] theorem State.setDisplay_i (g : Vector DispRow 32) (c : Bool) : (s.setDisplay g c).i = s.i := rfl
@[simp] theorem State.setDisplay_pc (g : Vector DispRow 32) (c : Bool) : (s.setDisplay g c).pc = s.pc := rfl
@[simp] theorem State.setDisplay_sp (g : Vector DispRow 32) (c : Bool) : (s.setDisplay g c).sp = s.sp := rfl
@[simp] theorem State.setDisplay_stack (g : Vector DispRow 32) (c : Bool) : (s.setDisplay g c).stack = s.stack := rfl
@[simp] theorem State.setDisplay_dt (g : Vector DispRow 32) (c : Bool) : (s.setDisplay g c).dt = s.dt := rfl
@[simp] theorem State.setDisplay_st (g : Vector DispRow 32) (c : Bool) : (s.setDisplay g c).st = s.st := rfl
@[simp] theorem State.setDisplay_mem (g : Vector DispRow 32) (c : Bool) : (s.setDisplay g c).mem = s.mem := rfl
@[simp] theorem State.setDisplay_px (g : Vector DispRow 32) (c : Bool) : (s.setDisplay g c).px = g := rfl
@[simp] theorem State.setDisplay_changed (g : Vector DispRow 32) (c : Bool) : (s.setDisplay g c).changed = c := rfl
@[simp] theorem State.setDisplay_key (g : Vector DispRow 32) (c : Bool) : (s.setDisplay g c).key = s.key := rfl
@[simp] theorem State.setDisplay_lastKey (g : Vector DispRow 32) (c : Bool) : (s.setDisplay g c).lastKey = s.lastKey := rfl
@[simp] theorem State.setDisplay_halted (g : Vector DispRow 32) (c : Bool) : (s.setDisplay g c).halted = s.halted := rfl
@[simp] theorem State.setDisplay_waitKey (g : Vector DispRow 32) (c : Bool) : (s.setDisplay g c).waitKey = s.waitKey := rfl
@[simp] theorem State.setDisplay_waitReg (g : Vector DispRow 32) (c : Bool) : (s.setDisplay g c).waitReg = s.waitReg := rfl
@[simp] theorem State.setDisplay_err (g : Vector DispRow 32) (c : Bool) : (s.setDisplay g c).err = s.err := rfl
@[simp] theorem State.setDisplay_font (g : Vector DispRow 32) (c : Bool) : (s.setDisplay g c).font = s.font := rfl
@[simp] theorem State.setDisplay_draws (g : Vector DispRow 32) (c : Bool) : (s.setDisplay g c).draws = s.draws := rfl
@[simp] theorem State.setDisplay_schedule (g : Vector DispRow 32) (c : Bool) : (s.setDisplay g c).schedule = s.schedule := rfl
@[simp] theorem State.setDisplay_fresh (g : Vector DispRow 32) (c : Bool) : (s.setDisplay g c).fresh = s.fresh := rfl

/-! `State.setKeys` -/

@[simp] theorem State.setKeys_v (k : Vector Bool 16) (l : Option Key) : (s.setKeys k l).v = s.v := rfl
@[simp] theorem State.setKeys_i (k : Vector Bool 16) (l : Option Key) : (s.setKeys k l).i = s.i := rfl
@[simp] theorem State.setKeys_pc (k : Vector Bool 16) (l : Option Key) : (s.setKeys k l).pc = s.pc := rfl
@[simp] theorem State.setKeys_sp (k : Vector Bool 16) (l : Option Key) : (s.setKeys k l).sp = s.sp := rfl
@[simp] theorem State.setKeys_stack (k : Vector Bool 16) (l : Option Key) : (s.setKeys k l).stack = s.stack := rfl
@[simp] theorem State.setKeys_dt (k : Vector Bool 16) (l : Option Key) : (s.setKeys k l).dt = s.dt := rfl
@[simp] theorem State.setKeys_st (k : Vector Bool 16) (l : Option Key) : (s.setKeys k l).st = s.st := rfl
@[simp] theorem State.setKeys_mem (k : Vector Bool 16) (l : Option Key) : (s.setKeys k l).mem = s.mem := rfl
@[simp] theorem State.setKeys_px (k : Vector Bool 16) (l : Option Key) : (s.setKeys k l).px = s.px := rfl
@[simp] theorem State.setKeys_changed (k : Vector Bool 16) (l : Option Key) : (s.setKeys k l).changed = s.changed := rfl
@[simp] theorem State.setKeys_key (k : Vector Bool 16) (l : Option Key) : (s.setKeys k l).key = k := rfl
@[simp] theorem State.setKeys_lastKey (k : Vector Bool 16) (l : Option Key) : (s.setKeys k l).lastKey = l := rfl
@[simp] theorem State.setKeys_halted (k : Vector Bool 16) (l : Option Key) : (s.setKeys k l).halted = s.halted := rfl
@[simp] theorem State.setKeys_waitKey (k : Vector Bool 16) (l : Option Key) : (s.setKeys k l).waitKey = s.waitKey := rfl
@[simp] theorem State.setKeys_waitReg (k : Vector Bool 16) (l : Option Key) : (s.setKeys k l).waitReg = s.waitReg := rfl
@[simp] theorem State.setKeys_err (k : Vector Bool 16) (l : Option Key) : (s.setKeys k l).err = s.err := rfl
@[simp] theorem State.setKeys_font (k : Vector Bool 16) (l : Option Key) : (s.setKeys k l).font = s.font := rfl
@[simp] theorem State.setKeys_draws (k : Vector Bool 16) (l : Option Key) : (s.setKeys k l).draws = s.draws := rfl
@[simp] theorem State.setKeys_schedule (k : Vector Bool 16) (l : Option Key) : (s.setKeys k l).schedule = s.schedule := rfl
@[simp] theorem State.setKeys_fresh (k : Vector Bool 16) (l : Option Key) : (s.setKeys k l).fresh = s.fresh := rfl

/-! `State.setWait` -/

@[simp] theorem State.setWait_v (on : Bool) (x : Nibble) : (s.setWait on x).v = s.v := rfl
@[simp] theorem State.setWait_i (on : Bool) (x : Nibble) : (s.setWait on x).i = s.i := rfl
@[simp] theorem State.setWait_pc (on : Bool) (x : Nibble) : (s.setWait on x).pc = s.pc := rfl
@[simp] theorem State.setWait_sp (on : Bool) (x : Nibble) : (s.setWait on x).sp = s.sp := rfl
@[simp] theorem State.setWait_stack (on : Bool) (x : Nibble) : (s.setWait on x).stack = s.stack := rfl
@[simp] theorem State.setWait_dt (on : Bool) (x : Nibble) : (s.setWait on x).dt = s.dt := rfl
@[simp] theorem State.setWait_st (on : Bool) (x : Nibble) : (s.setWait on x).st = s.st := rfl
@[simp] theorem State.setWait_mem (on : Bool) (x : Nibble) : (s.setWait on x).mem = s.mem := rfl
@[simp] theorem State.setWait_px (on : Bool) (x : Nibble) : (s.setWait on x).px = s.px := rfl
@[simp] theorem State.setWait_changed (on : Bool) (x : Nibble) : (s.setWait on x).changed = s.changed := rfl
@[simp] theorem State.setWait_key (on : Bool) (x : Nibble) : (s.setWait on x).key = s.key := rfl
@[simp] theorem State.setWait_lastKey (on : Bool) (x : Nibble) : (s.setWait on x).lastKey = s.lastKey := rfl
@[simp] theorem State.setWait_halted (on : Bool) (x : Nibble) : (s.setWait on x).halted = s.halted := rfl
@[simp] theorem State.setWait_waitKey (on : Bool) (x : Nibble) : (s.setWait on x).waitKey = on := rfl
@[simp] theorem State.setWait_waitReg (on : Bool) (x : Nibble) : (s.setWait on x).waitReg = x := rfl
@[simp] theorem State.setWait_err (on : Bool) (x : Nibble) : (s.setWait on x).err = s.err := rfl
@[simp] theorem State.setWait_font (on : Bool) (x : Nibble) : (s.setWait on x).font = s.font := rfl
@[simp] theorem State.setWait_draws (on : Bool) (x : Nibble) : (s.setWait on x).draws = s.draws := rfl
@[simp] theorem State.setWait_schedule (on : Bool) (x : Nibble) : (s.setWait on x).schedule = s.schedule := rfl
@[simp] theorem State.setWait_fresh (on : Bool) (x : Nibble) : (s.setWait on x).fresh = s.fresh := rfl

/-! `State.countDraw` -/

@[simp] theorem State.countDraw_v : (s.countDraw).v = s.v := rfl
@[simp] theorem State.countDraw_i : (s.countDraw).i = s.i := rfl
@[simp] theorem State.countDraw_pc : (s.countDraw).pc = s.pc := rfl
@[simp] theorem State.countDraw_sp : (s.countDraw).sp = s.sp := rfl
@[simp] theorem State.countDraw_stack : (s.countDraw).stack = s.stack := rfl
@[simp] theorem State.countDraw_dt : (s.countDraw).dt = s.dt := rfl
@[simp] theorem State.countDraw_st : (s.countDraw).st = s.st := rfl
@[simp] theorem State.countDraw_mem : (s.countDraw).mem = s.mem := rfl
@[simp] theorem State.countDraw_px : (s.countDraw).px = s.px := rfl
@[simp] theorem State.countDraw_changed : (s.countDraw).changed = s.changed := rfl
@[simp] theorem State.countDraw_key : (s.countDraw).key = s.key := rfl
@[simp] theorem State.countDraw_lastKey : (s.countDraw).lastKey = s.lastKey := rfl
@[simp] theorem State.countDraw_halted : (s.countDraw).halted = s.halted := rfl
@[simp] theorem State.countDraw_waitKey : (s.countDraw).waitKey = s.waitKey := rfl
@[simp] theorem State.countDraw_waitReg : (s.countDraw).waitReg = s.waitReg := rfl
@[simp] theorem State.countDraw_err : (s.countDraw).err = s.err := rfl
@[simp] theorem State.countDraw_font : (s.countDraw).font = s.font := rfl
@[simp] theorem State.countDraw_draws : (s.countDraw).draws = s.draws + 1 := rfl
@[simp] theorem State.countDraw_schedule : (s.countDraw).schedule = s.schedule := rfl
@[simp] theorem State.countDraw_fresh : (s.countDraw).fresh = s.fresh := rfl

/-! `State.setPort` -/

@[simp] theorem State.setPort_v (c : List Command) (f : Bool) : (s.setPort c f).v = s.v := rfl
@[simp] theorem State.setPort_i (c : List Command) (f : Bool) : (s.setPort c f).i = s.i := rfl
@[simp] theorem State.setPort_pc (c : List Command) (f : Bool) : (s.setPort c f).pc = s.pc := rfl
@[simp] theorem State.setPort_sp (c : List Command) (f : Bool) : (s.setPort c f).sp = s.sp := rfl
@[simp] theorem State.setPort_stack (c : List Command) (f : Bool) : (s.setPort c f).stack = s.stack := rfl
@[simp] theorem State.setPort_dt (c : List Command) (f : Bool) : (s.setPort c f).dt = s.dt := rfl
@[simp] theorem State.setPort_st (c : List Command) (f : Bool) : (s.setPort c f).st = s.st := rfl
@[simp] theorem State.setPort_mem (c : List Command) (f : Bool) : (s.setPort c f).mem = s.mem := rfl
@[simp] theorem State.setPort_px (c : List Command) (f : Bool) : (s.setPort c f).px = s.px := rfl
@[simp] theorem State.setPort_changed (c : List Command) (f : Bool) : (s.setPort c f).changed = s.changed := rfl
@[simp] theorem State.setPort_key (c : List Command) (f : Bool) : (s.setPort c f).key = s.key := rfl
@[simp] theorem State.setPort_lastKey (c : List Command) (f : Bool) : (s.setPort c f).lastKey = s.lastKey := rfl
@[simp] theorem State.setPort_halted (c : List Command) (f : Bool) : (s.setPort c f).halted = s.halted := rfl
@[simp] theorem State.setPort_waitKey (c : List Command) (f : Bool) : (s.setPort c f).waitKey = s.waitKey := rfl
@[simp] theorem State.setPort_waitReg (c : List Command) (f : Bool) : (s.setPort c f).waitReg = s.waitReg := rfl
@[simp] theorem State.setPort_err (c : List Command) (f : Bool) : (s.setPort c f).err = s.err := rfl
@[simp] theorem State.setPort_font (c : List Command) (f : Bool) : (s.setPort c f).font = s.font := rfl
@[simp] theorem State.setPort_draws (c : List Command) (f : Bool) : (s.setPort c f).draws = s.draws := rfl
@[simp] theorem State.setPort_schedule (c : List Command) (f : Bool) : (s.setPort c f).schedule = c := rfl
@[simp] theorem State.setPort_fresh (c : List Command) (f : Bool) : (s.setPort c f).fresh = f := rfl

/-! `State.fatal` -/

@[simp] theorem State.fatal_v (e : ErrorCode) (op : Option Word) : (s.fatal e op).v = s.v := rfl
@[simp] theorem State.fatal_i (e : ErrorCode) (op : Option Word) : (s.fatal e op).i = s.i := rfl
@[simp] theorem State.fatal_pc (e : ErrorCode) (op : Option Word) : (s.fatal e op).pc = s.pc := rfl
@[simp] theorem State.fatal_sp (e : ErrorCode) (op : Option Word) : (s.fatal e op).sp = s.sp := rfl
@[simp] theorem State.fatal_stack (e : ErrorCode) (op : Option Word) : (s.fatal e op).stack = s.stack := rfl
@[simp] theorem State.fatal_dt (e : ErrorCode) (op : Option Word) : (s.fatal e op).dt = s.dt := rfl
@[simp] theorem State.fatal_st (e : ErrorCode) (op : Option Word) : (s.fatal e op).st = s.st := rfl
@[simp] theorem State.fatal_mem (e : ErrorCode) (op : Option Word) : (s.fatal e op).mem = s.mem := rfl
@[simp] theorem State.fatal_px (e : ErrorCode) (op : Option Word) : (s.fatal e op).px = s.px := rfl
@[simp] theorem State.fatal_changed (e : ErrorCode) (op : Option Word) : (s.fatal e op).changed = s.changed := rfl
@[simp] theorem State.fatal_key (e : ErrorCode) (op : Option Word) : (s.fatal e op).key = s.key := rfl
@[simp] theorem State.fatal_lastKey (e : ErrorCode) (op : Option Word) : (s.fatal e op).lastKey = s.lastKey := rfl
@[simp] theorem State.fatal_halted (e : ErrorCode) (op : Option Word) : (s.fatal e op).halted = true := rfl
@[simp] theorem State.fatal_waitKey (e : ErrorCode) (op : Option Word) : (s.fatal e op).waitKey = s.waitKey := rfl
@[simp] theorem State.fatal_waitReg (e : ErrorCode) (op : Option Word) : (s.fatal e op).waitReg = s.waitReg := rfl
@[simp] theorem State.fatal_err (e : ErrorCode) (op : Option Word) : (s.fatal e op).err = some ⟨e, s.pc, op⟩ := rfl
@[simp] theorem State.fatal_font (e : ErrorCode) (op : Option Word) : (s.fatal e op).font = s.font := rfl
@[simp] theorem State.fatal_draws (e : ErrorCode) (op : Option Word) : (s.fatal e op).draws = s.draws := rfl
@[simp] theorem State.fatal_schedule (e : ErrorCode) (op : Option Word) : (s.fatal e op).schedule = s.schedule := rfl
@[simp] theorem State.fatal_fresh (e : ErrorCode) (op : Option Word) : (s.fatal e op).fresh = s.fresh := rfl

/-! The reset state (R42) -/

@[simp] theorem State.resetWith_v (font : Font) : (State.resetWith font).v = Vector.replicate 16 0 := rfl
@[simp] theorem State.resetWith_i (font : Font) : (State.resetWith font).i = 0 := rfl
@[simp] theorem State.resetWith_pc (font : Font) : (State.resetWith font).pc = BitVec.ofNat 16 Config.progBase := rfl
@[simp] theorem State.resetWith_sp (font : Font) : (State.resetWith font).sp = 0 := rfl
@[simp] theorem State.resetWith_stack (font : Font) : (State.resetWith font).stack = Vector.replicate 16 0 := rfl
@[simp] theorem State.resetWith_dt (font : Font) : (State.resetWith font).dt = 0 := rfl
@[simp] theorem State.resetWith_st (font : Font) : (State.resetWith font).st = 0 := rfl
@[simp] theorem State.resetWith_mem (font : Font) : (State.resetWith font).mem = [] := rfl
@[simp] theorem State.resetWith_px (font : Font) : (State.resetWith font).px = Vector.replicate 32 0 := rfl
@[simp] theorem State.resetWith_changed (font : Font) : (State.resetWith font).changed = false := rfl
@[simp] theorem State.resetWith_key (font : Font) : (State.resetWith font).key = Vector.replicate 16 false := rfl
@[simp] theorem State.resetWith_lastKey (font : Font) : (State.resetWith font).lastKey = none := rfl
@[simp] theorem State.resetWith_halted (font : Font) : (State.resetWith font).halted = false := rfl
@[simp] theorem State.resetWith_waitKey (font : Font) : (State.resetWith font).waitKey = false := rfl
@[simp] theorem State.resetWith_waitReg (font : Font) : (State.resetWith font).waitReg = 0 := rfl
@[simp] theorem State.resetWith_err (font : Font) : (State.resetWith font).err = none := rfl
@[simp] theorem State.resetWith_font (font : Font) : (State.resetWith font).font = font := rfl
@[simp] theorem State.resetWith_draws (font : Font) : (State.resetWith font).draws = 0 := rfl
@[simp] theorem State.resetWith_schedule (font : Font) : (State.resetWith font).schedule = [] := rfl
@[simp] theorem State.resetWith_fresh (font : Font) : (State.resetWith font).fresh = true := rfl

/-! Registers, memory and pixels through `readV`, `readMem` and `pixel` -/

/-- A register read after a register write (R21). -/
@[simp] theorem State.readV_writeV (x y : Nibble) (b : Byte) :
    (s.writeV x b).readV y = if y = x then b else s.readV y := by
  simp only [State.readV, State.writeV, Vector.getElem_set, ← BitVec.toNat_inj, eq_comm]

@[simp] theorem State.readMem_writeV (l : Nat) (z : Nibble) (b : Byte) : (s.writeV z b).readMem l = s.readMem l := rfl
@[simp] theorem State.pixel_writeV (c : Fin 64) (r : Fin 32) (z : Nibble) (b : Byte) : (s.writeV z b).pixel c r = s.pixel c r := rfl
@[simp] theorem State.readMem_setRegs (l : Nat) (w : Vector Byte 16) : (s.setRegs w).readMem l = s.readMem l := rfl
@[simp] theorem State.pixel_setRegs (c : Fin 64) (r : Fin 32) (w : Vector Byte 16) : (s.setRegs w).pixel c r = s.pixel c r := rfl
@[simp] theorem State.readV_setPc (r : Nibble) (p : Word) : (s.setPc p).readV r = s.readV r := rfl
@[simp] theorem State.readMem_setPc (l : Nat) (p : Word) : (s.setPc p).readMem l = s.readMem l := rfl
@[simp] theorem State.pixel_setPc (c : Fin 64) (r : Fin 32) (p : Word) : (s.setPc p).pixel c r = s.pixel c r := rfl
@[simp] theorem State.readV_setI (r : Nibble) (a : Word) : (s.setI a).readV r = s.readV r := rfl
@[simp] theorem State.readMem_setI (l : Nat) (a : Word) : (s.setI a).readMem l = s.readMem l := rfl
@[simp] theorem State.pixel_setI (c : Fin 64) (r : Fin 32) (a : Word) : (s.setI a).pixel c r = s.pixel c r := rfl
@[simp] theorem State.readV_setStack (r : Nibble) (k : Vector Word 16) (n : Fin 17) : (s.setStack k n).readV r = s.readV r := rfl
@[simp] theorem State.readMem_setStack (l : Nat) (k : Vector Word 16) (n : Fin 17) : (s.setStack k n).readMem l = s.readMem l := rfl
@[simp] theorem State.pixel_setStack (c : Fin 64) (r : Fin 32) (k : Vector Word 16) (n : Fin 17) : (s.setStack k n).pixel c r = s.pixel c r := rfl
@[simp] theorem State.readV_setDt (r : Nibble) (b : Byte) : (s.setDt b).readV r = s.readV r := rfl
@[simp] theorem State.readMem_setDt (l : Nat) (b : Byte) : (s.setDt b).readMem l = s.readMem l := rfl
@[simp] theorem State.pixel_setDt (c : Fin 64) (r : Fin 32) (b : Byte) : (s.setDt b).pixel c r = s.pixel c r := rfl
@[simp] theorem State.readV_setSt (r : Nibble) (b : Byte) : (s.setSt b).readV r = s.readV r := rfl
@[simp] theorem State.readMem_setSt (l : Nat) (b : Byte) : (s.setSt b).readMem l = s.readMem l := rfl
@[simp] theorem State.pixel_setSt (c : Fin 64) (r : Fin 32) (b : Byte) : (s.setSt b).pixel c r = s.pixel c r := rfl
@[simp] theorem State.readV_setMem (r : Nibble) (m : Memory) : (s.setMem m).readV r = s.readV r := rfl
@[simp] theorem State.pixel_setMem (c : Fin 64) (r : Fin 32) (m : Memory) : (s.setMem m).pixel c r = s.pixel c r := rfl
@[simp] theorem State.readV_storeBytes (r : Nibble) (a : Nat) (bs : List Byte) : (s.storeBytes a bs).readV r = s.readV r := rfl
@[simp] theorem State.pixel_storeBytes (c : Fin 64) (r : Fin 32) (a : Nat) (bs : List Byte) : (s.storeBytes a bs).pixel c r = s.pixel c r := rfl
@[simp] theorem State.readV_setDisplay (r : Nibble) (g : Vector DispRow 32) (c : Bool) : (s.setDisplay g c).readV r = s.readV r := rfl
@[simp] theorem State.readMem_setDisplay (l : Nat) (g : Vector DispRow 32) (c : Bool) : (s.setDisplay g c).readMem l = s.readMem l := rfl
@[simp] theorem State.readV_setKeys (r : Nibble) (k : Vector Bool 16) (l : Option Key) : (s.setKeys k l).readV r = s.readV r := rfl
@[simp] theorem State.readMem_setKeys (l : Nat) (k : Vector Bool 16) (d : Option Key) : (s.setKeys k d).readMem l = s.readMem l := rfl
@[simp] theorem State.pixel_setKeys (c : Fin 64) (r : Fin 32) (k : Vector Bool 16) (l : Option Key) : (s.setKeys k l).pixel c r = s.pixel c r := rfl
@[simp] theorem State.readV_setWait (r : Nibble) (on : Bool) (z : Nibble) : (s.setWait on z).readV r = s.readV r := rfl
@[simp] theorem State.readMem_setWait (l : Nat) (on : Bool) (z : Nibble) : (s.setWait on z).readMem l = s.readMem l := rfl
@[simp] theorem State.pixel_setWait (c : Fin 64) (r : Fin 32) (on : Bool) (z : Nibble) : (s.setWait on z).pixel c r = s.pixel c r := rfl
@[simp] theorem State.readV_countDraw (r : Nibble) : (s.countDraw).readV r = s.readV r := rfl
@[simp] theorem State.readMem_countDraw (l : Nat) : (s.countDraw).readMem l = s.readMem l := rfl
@[simp] theorem State.pixel_countDraw (c : Fin 64) (r : Fin 32) : (s.countDraw).pixel c r = s.pixel c r := rfl
@[simp] theorem State.readV_setPort (r : Nibble) (c : List Command) (f : Bool) : (s.setPort c f).readV r = s.readV r := rfl
@[simp] theorem State.readMem_setPort (l : Nat) (c : List Command) (f : Bool) : (s.setPort c f).readMem l = s.readMem l := rfl
@[simp] theorem State.pixel_setPort (c : Fin 64) (r : Fin 32) (d : List Command) (f : Bool) : (s.setPort d f).pixel c r = s.pixel c r := rfl
@[simp] theorem State.readV_fatal (r : Nibble) (e : ErrorCode) (op : Option Word) : (s.fatal e op).readV r = s.readV r := rfl
@[simp] theorem State.readMem_fatal (l : Nat) (e : ErrorCode) (op : Option Word) : (s.fatal e op).readMem l = s.readMem l := rfl
@[simp] theorem State.pixel_fatal (c : Fin 64) (r : Fin 32) (e : ErrorCode) (op : Option Word) : (s.fatal e op).pixel c r = s.pixel c r := rfl

/-- The mode of a state neither halted nor waiting (R37). -/
theorem State.mode_running (hh : s.halted = false) (hw : s.waitKey = false) : s.mode = .running := by
  simp [State.mode, hh, hw]

/-- Running says that both bits are 0 (R37). -/
theorem State.mode_eq_running : s.mode = .running ↔ s.halted = false ∧ s.waitKey = false := by
  cases hh : s.halted <;> cases hw : s.waitKey <;> simp [State.mode, hh, hw]

theorem State.mode_eq_awaitingKey : s.mode = .awaitingKey ↔ s.halted = false ∧ s.waitKey = true := by
  cases hh : s.halted <;> cases hw : s.waitKey <;> simp [State.mode, hh, hw]

theorem State.mode_eq_halted : s.mode = .halted ↔ s.halted = true := by
  cases hh : s.halted <;> cases hw : s.waitKey <;> simp [State.mode, hh, hw]

end Sys2Proof.Machine
end

