-- ==== Sys2Proof/Laws/Memory.lean ====
section
/-! SUPPORT. The laws of memory: what a read after a write gives, and that every operation keeps the canonical form. -/

namespace Sys2Proof.Machine

variable {font : Font}

/-- The canonical form, one cell at a time. -/
theorem Memory.wf_cons {a : Nat} {v : Byte} {rest : Memory} :
    Memory.wf font ((a, v) :: rest) = true ↔
      a < 4096 ∧ v ≠ resetByte font a ∧ (∀ c ∈ rest, a < c.1) ∧ Memory.wf font rest = true := by
  simp [Memory.wf, and_assoc]

/-- An address below every listed one reads as its reset content. -/
theorem Memory.read_below {m : Memory} {a : Nat} (h : ∀ c ∈ m, a < c.1) : Memory.read font m a = resetByte font a := by
  induction m with
  | nil => rfl
  | cons c rest ih =>
    obtain ⟨b, w⟩ := c
    have hb : a < b := h (b, w) (by simp)
    rw [Memory.read, if_neg (by omega)]
    exact ih fun c hc => h c (by simp [hc])

/-- A write leaves every other address alone, in canonical form or not. -/
theorem Memory.read_write_ne (m : Memory) {a c : Nat} (v : Byte) (h : c ≠ a) :
    Memory.read font (Memory.write font m a v) c = Memory.read font m c := by
  induction m with
  | nil => unfold Memory.write; split <;> simp [Memory.read, h]
  | cons d rest ih =>
    obtain ⟨b, w⟩ := d
    unfold Memory.write
    split
    · split <;> simp [Memory.read, h]
    · split
      · subst b; split <;> simp [Memory.read, h]
      · simp [Memory.read, ih]

/-- A write is read back. -/
theorem Memory.read_write_same {m : Memory} (hm : Memory.wf font m = true) (a : Nat) (v : Byte) :
    Memory.read font (Memory.write font m a v) a = v := by
  induction m with
  | nil => unfold Memory.write; split <;> simp_all [Memory.read]
  | cons d rest ih =>
    obtain ⟨b, w⟩ := d
    obtain ⟨-, -, hlt, hrest⟩ := Memory.wf_cons.mp hm
    unfold Memory.write
    split
    · rename_i hab
      split
      · rename_i hv
        rw [hv]
        exact Memory.read_below fun c hc => by
          rcases List.mem_cons.mp hc with rfl | hc
          · exact hab
          · exact lt_trans hab (hlt c hc)
      · simp [Memory.read]
    · split
      · subst b
        split
        · rename_i hv; rw [hv]; exact Memory.read_below hlt
        · simp [Memory.read]
      · rename_i hne
        rw [Memory.read, if_neg hne]
        exact ih hrest

/-- A cell of a written memory was there before or is the one written. -/
theorem Memory.mem_write {m : Memory} {a : Nat} {v : Byte} {c : Host.Cell} (h : c ∈ Memory.write font m a v) :
    c ∈ m ∨ c = (a, v) := by
  induction m with
  | nil => unfold Memory.write at h; split at h <;> simp_all
  | cons d rest ih =>
    obtain ⟨b, w⟩ := d
    unfold Memory.write at h
    split at h
    · split at h
      · exact .inl h
      · rcases List.mem_cons.mp h with h | h
        · exact .inr h
        · exact .inl h
    · split at h
      · split at h
        · exact .inl (List.mem_cons_of_mem _ h)
        · rcases List.mem_cons.mp h with h | h
          · exact .inr h
          · exact .inl (List.mem_cons_of_mem _ h)
      · rcases List.mem_cons.mp h with h | h
        · exact .inl (h ▸ List.mem_cons_self)
        · exact (ih h).imp (List.mem_cons_of_mem _) id

/-- A write keeps the canonical form. -/
theorem Memory.wf_write {m : Memory} (hm : Memory.wf font m = true) {a : Nat} (ha : a < 4096) (v : Byte) :
    Memory.wf font (Memory.write font m a v) = true := by
  induction m with
  | nil =>
    unfold Memory.write
    split
    · rfl
    · exact Memory.wf_cons.mpr ⟨ha, ‹_›, by simp, rfl⟩
  | cons d rest ih =>
    obtain ⟨b, w⟩ := d
    obtain ⟨hb, hw, hlt, hrest⟩ := Memory.wf_cons.mp hm
    unfold Memory.write
    split
    · rename_i hab
      split
      · exact hm
      · refine Memory.wf_cons.mpr ⟨ha, ‹_›, fun c hc => ?_, hm⟩
        rcases List.mem_cons.mp hc with rfl | hc
        · exact hab
        · exact lt_trans hab (hlt c hc)
    · rename_i hab
      split
      · subst b
        split
        · exact hrest
        · exact Memory.wf_cons.mpr ⟨ha, ‹_›, hlt, hrest⟩
      · rename_i hne
        refine Memory.wf_cons.mpr ⟨hb, hw, fun c hc => ?_, ih hrest⟩
        rcases Memory.mem_write hc with hc | rfl
        · exact hlt c hc
        · show b < a; omega

/-- Storing bytes leaves every address outside them alone. -/
theorem Memory.read_writeBytes_outside (m : Memory) (a : Nat) (bs : List Byte) {c : Nat}
    (h : ¬(a ≤ c ∧ c < a + bs.length)) : Memory.read font (Memory.writeBytes font m a bs) c = Memory.read font m c := by
  induction bs generalizing m a with
  | nil => rfl
  | cons b bs ih =>
    simp only [List.length_cons] at h
    rw [Memory.writeBytes, ih _ _ (by omega), Memory.read_write_ne _ _ (by omega)]

/-- Storing bytes below 4096 keeps the canonical form. -/
theorem Memory.wf_writeBytes {m : Memory} (hm : Memory.wf font m = true) {a : Nat} {bs : List Byte}
    (h : a + bs.length ≤ 4096) : Memory.wf font (Memory.writeBytes font m a bs) = true := by
  induction bs generalizing m a with
  | nil => exact hm
  | cons b bs ih =>
    simp only [List.length_cons] at h
    exact ih (Memory.wf_write hm (by omega) b) (by omega)

/-- The j-th byte stored is read at the j-th address. -/
theorem Memory.read_writeBytes_inside {m : Memory} (hm : Memory.wf font m = true) {a : Nat} {bs : List Byte}
    (h : a + bs.length ≤ 4096) {j : Nat} (hj : j < bs.length) :
    Memory.read font (Memory.writeBytes font m a bs) (a + j) = bs[j] := by
  induction bs generalizing m a j with
  | nil => simp at hj
  | cons b bs ih =>
    simp only [List.length_cons] at h hj
    rw [Memory.writeBytes]
    cases j with
    | zero =>
      rw [Memory.read_writeBytes_outside _ _ _ (by omega)]
      exact Memory.read_write_same hm _ _
    | succ j =>
      have := ih (Memory.wf_write hm (a := a) (by omega) b) (a := a + 1) (by omega) (j := j) (by omega)
      rw [show a + (j + 1) = a + 1 + j by omega, this]
      rfl

/-- The range check, as a fact about naturals (R61). -/
theorem inMemory_iff {base len : Nat} : inMemory base len = true ↔ len = 0 ∨ base + len ≤ 4096 := by
  simp [inMemory]

/-- The memory of the reset state is in canonical form. -/
theorem State.resetWith_mem_wf (font : Font) : Memory.wf font (State.resetWith font).mem = true := rfl

/-! The same laws for the state's memory, and its reset content (R42). -/

/-- Two states with the same memory list and `FONT` read alike. -/
theorem State.readMem_congr {s t : State} (hf : t.font = s.font) (hm : t.mem = s.mem) (a : Nat) :
    t.readMem a = s.readMem a := by
  simp only [State.readMem, hf, hm]

theorem State.readMem_setMem (s : State) (m : Memory) (a : Nat) : (s.setMem m).readMem a = Memory.read s.font m a := rfl

/-- Storing bytes leaves every address outside them alone. -/
theorem State.readMem_storeBytes_outside (s : State) (a : Nat) (bs : List Byte) {c : Nat}
    (h : ¬(a ≤ c ∧ c < a + bs.length)) : (s.storeBytes a bs).readMem c = s.readMem c :=
  Memory.read_writeBytes_outside _ _ _ h

/-- The j-th byte stored is read at the j-th address. -/
theorem State.readMem_storeBytes_inside {s : State} (hm : Memory.wf s.font s.mem = true) {a : Nat} {bs : List Byte}
    (h : a + bs.length ≤ 4096) {j : Nat} (hj : j < bs.length) : (s.storeBytes a bs).readMem (a + j) = bs[j] :=
  Memory.read_writeBytes_inside hm h hj

theorem resetByte_of_lt {a : Nat} (h : a < 80) : resetByte font a = font[a] := by simp [resetByte, h]

theorem resetByte_of_ge {a : Nat} (h : 80 ≤ a) : resetByte font a = 0 := by simp [resetByte, Nat.not_lt.mpr h]

theorem State.readMem_resetWith (font : Font) (a : Nat) : (State.resetWith font).readMem a = resetByte font a := rfl

end Sys2Proof.Machine
end

