-- ==== Sys2Proof/Laws/Ops.lean ====
section
/-! SUPPORT. One lemma for each shared operation that says what it can do, for proofs to cite. -/

namespace Sys2Proof.Machine

theorem complete_eq (s : State) : complete s = .next (s.setPc (s.pc + 2)) := rfl

theorem skipIf_eq (c : Bool) (s : State) :
    skipIf c s = .next (s.setPc (if c = true then s.pc + 4 else s.pc + 2)) := by
  cases c
  · rfl
  · simp [skipIf, State.nextPc, BitVec.add_assoc]

theorem raise_eq (e : ErrorCode) (i : Instr) (s : State) :
    raise e i s = .next (s.fatal e (some (encode i))) := rfl

theorem completeWithFlag_eq (x : Nibble) (r : Byte) (f : Bool) (s : State) :
    completeWithFlag x r f s = .next (((s.writeV x r).writeV 0xF (flagByte f)).setPc (s.pc + 2)) := rfl

/-- The codes of R250's table are the numbers 1 to 6, each once. -/
theorem ErrorCode.number_injective {e d : ErrorCode} (h : e.number = d.number) : e = d := by
  cases e <;> cases d <;> first | rfl | cases h

/-- A pop that answers took the last entry pushed (R27, R120). -/
theorem State.pop_of_pos {s : State} (h : 0 < s.sp.val) :
    s.pop = some (s.stack[s.sp.val - 1]'(by omega), s.setStack s.stack ⟨s.sp.val - 1, by omega⟩) := by
  simp [State.pop, h]

theorem State.pop_of_zero {s : State} (h : s.sp.val = 0) : s.pop = none := by simp [State.pop, h]

/-- A push that answers wrote `stack[SP]` (R27, R123). -/
theorem State.push_of_lt {s : State} (h : s.sp.val < 16) (w : Word) :
    s.push w = some (s.setStack (s.stack.set s.sp.val w h) ⟨s.sp.val + 1, by omega⟩) := by
  simp [State.push, h]

theorem State.push_of_full {s : State} (h : s.sp.val = 16) (w : Word) : s.push w = none := by
  simp [State.push, h]

theorem keyOperand_of_lt {b : Byte} (h : b.toNat < 16) : keyOperand b = some ⟨b.toNat, h⟩ := by
  simp [keyOperand, h]

theorem keyOperand_of_ge {b : Byte} (h : 16 ≤ b.toNat) : keyOperand b = none := by
  simp [keyOperand, h]

/-- The key scan's key is down and no lower one is (R213). -/
theorem lowestKey_eq_some {s : State} {k : Key} :
    lowestKey s = some k ↔ s.key[k] = true ∧ ∀ j : Key, j < k → s.key[j] = false := by
  simp only [lowestKey, List.find?_eq_some_iff_getElem]
  constructor
  · rintro ⟨hk, n, hn, rfl, hlow⟩
    refine ⟨by simpa using hk, fun j hj => ?_⟩
    have hjn : j.val < n := by simpa [Fin.lt_def] using hj
    simpa using hlow j.val hjn
  · rintro ⟨hk, hlow⟩
    refine ⟨by simpa using hk, k.val, by simp, by simp, fun j hj => ?_⟩
    have hj16 : j < 16 := by omega
    simpa using hlow ⟨j, hj16⟩ (by simpa [Fin.lt_def] using hj)

theorem lowestKey_eq_none {s : State} : lowestKey s = none ↔ ∀ k : Key, s.key[k] = false := by
  simp [lowestKey]

/-- A pixel of a placed sprite row (R191, R192). -/
theorem placeSpriteRow_pixel (b : Byte) (ox : Nat) (x : Fin 64) :
    (placeSpriteRow b ox).getMsbD x.val = (decide (ox ≤ x.val ∧ x.val < ox + 8) && b.getMsbD (x.val - ox)) := by
  have := x.isLt
  unfold placeSpriteRow
  simp only [BitVec.getMsbD_ushiftRight, BitVec.getMsbD_append]
  by_cases h1 : x.val < ox
  · simp [h1]
  · by_cases h2 : x.val - ox < 8
    · have : ox ≤ x.val ∧ x.val < ox + 8 := by omega
      simp [h1, h2, this]
    · have : ¬(ox ≤ x.val ∧ x.val < ox + 8) := by omega
      simp [h1, h2, this]

/-- A row of the sprite's grid (R191, R192). -/
theorem spriteGrid_row (s : State) (ox oy n : Nat) (y : Fin 32) :
    (spriteGrid s ox oy n)[y] =
      if oy ≤ y.val ∧ y.val < oy + n then placeSpriteRow (s.readMem (s.i.toNat + (y.val - oy))) ox else 0 := by
  simp [spriteGrid]

/-- XOR of two grids, row by row (R193). -/
theorem xorGrid_row (px g : Vector DispRow 32) (y : Fin 32) : (xorGrid px g)[y] = px[y] ^^^ g[y] := by
  simp [xorGrid]

/-- The collision flag, row by row (R194). -/
theorem collisionFlag_iff (px g : Vector DispRow 32) :
    collisionFlag px g = true ↔ ∃ y : Fin 32, px[y] &&& g[y] ≠ 0 := by
  simp [collisionFlag]

/-- A register after the block load (R175). -/
theorem readV_setRegs_loadBlock (s : State) (x r : Nibble) :
    (s.setRegs (loadBlock s x)).readV r =
      if r.toNat ≤ x.toNat then s.readMem (s.i.toNat + r.toNat) else s.readV r := by
  simp [State.readV, State.setRegs, loadBlock]

theorem registerBlock_length (s : State) (x : Nibble) : (registerBlock s x).length = x.toNat + 1 := by
  have := x.isLt
  simp [registerBlock]; omega

/-- The j-th byte of the register block is `V[j]` (R174). -/
theorem registerBlock_getElem (s : State) (x r : Nibble) (h : r.toNat < (registerBlock s x).length) :
    (registerBlock s x)[r.toNat] = s.readV r := by
  simp [registerBlock, State.readV]

theorem decimalDigits_length (a : Byte) : (decimalDigits a).length = 3 := rfl

/-- A fetch answers exactly when both bytes are memory (R103). -/
theorem fetchWord_eq {s : State} (h : s.pc.toNat ≤ 0xFFE) :
    fetchWord s = some (wordOfBytes (s.readMem s.pc.toNat) (s.readMem (s.pc.toNat + 1))) := by
  have : inMemory s.pc.toNat 2 = true := inMemory_iff.mpr (.inr (by omega))
  simp [fetchWord, this]

theorem fetchWord_none {s : State} (h : 0xFFF ≤ s.pc.toNat) : fetchWord s = none := by
  have : ¬inMemory s.pc.toNat 2 = true := fun hc => by
    rcases inMemory_iff.mp hc with h | h <;> omega
  simp [fetchWord, this]

end Sys2Proof.Machine
end

