-- ==== Sys2Proof/Laws/PerInstr.lean ====
section
/-! SUPPORT. Per instruction: its word belongs to its row of the opcode map R86. -/

namespace Sys2Proof.Laws.OpcodeMapRow

/-- The row of R86 that bears the instruction's number selects the instruction's word. -/
def Statement (i : Instr) : Prop := ∃ r ∈ opcodeMap, r.num = i.rowNum ∧ r.selects (encode i) = true

/-- A row of the map that selects a word. -/
theorem row_selects {i : Instr} (r : OpcodeRow) (hr : r ∈ opcodeMap) (hn : r.num = i.rowNum)
    (h : encode i &&& r.mask = r.value) : Statement i :=
  ⟨r, hr, hn, by simp [OpcodeRow.selects, h]⟩

theorem cls : Statement (.cls) :=
  row_selects ⟨1, 0xFFFF, 0x00E0⟩ (by decide) rfl (by decide)

theorem ret : Statement (.ret) :=
  row_selects ⟨2, 0xFFFF, 0x00EE⟩ (by decide) rfl (by decide)

theorem sys (nnn : Addr) : Statement (.sys nnn) :=
  row_selects ⟨3, 0xF000, 0x0000⟩ (by decide) rfl ((encodeAddr_class ..).trans (by decide))

theorem jp (nnn : Addr) : Statement (.jp nnn) :=
  row_selects ⟨4, 0xF000, 0x1000⟩ (by decide) rfl ((encodeAddr_class ..).trans (by decide))

theorem call (nnn : Addr) : Statement (.call nnn) :=
  row_selects ⟨5, 0xF000, 0x2000⟩ (by decide) rfl ((encodeAddr_class ..).trans (by decide))

theorem seImm (x : Nibble) (nn : Byte) : Statement (.seImm x nn) :=
  row_selects ⟨6, 0xF000, 0x3000⟩ (by decide) rfl ((encodeRegImm_class ..).trans (by decide))

theorem sneImm (x : Nibble) (nn : Byte) : Statement (.sneImm x nn) :=
  row_selects ⟨7, 0xF000, 0x4000⟩ (by decide) rfl ((encodeRegImm_class ..).trans (by decide))

theorem seReg (x : Nibble) (y : Nibble) : Statement (.seReg x y) :=
  row_selects ⟨8, 0xF00F, 0x5000⟩ (by decide) rfl ((encodeRegReg_sub ..).trans (by decide))

theorem ldImm (x : Nibble) (nn : Byte) : Statement (.ldImm x nn) :=
  row_selects ⟨9, 0xF000, 0x6000⟩ (by decide) rfl ((encodeRegImm_class ..).trans (by decide))

theorem addImm (x : Nibble) (nn : Byte) : Statement (.addImm x nn) :=
  row_selects ⟨10, 0xF000, 0x7000⟩ (by decide) rfl ((encodeRegImm_class ..).trans (by decide))

theorem ldReg (x : Nibble) (y : Nibble) : Statement (.ldReg x y) :=
  row_selects ⟨11, 0xF00F, 0x8000⟩ (by decide) rfl ((encodeRegReg_sub ..).trans (by decide))

theorem orReg (x : Nibble) (y : Nibble) : Statement (.orReg x y) :=
  row_selects ⟨12, 0xF00F, 0x8001⟩ (by decide) rfl ((encodeRegReg_sub ..).trans (by decide))

theorem andReg (x : Nibble) (y : Nibble) : Statement (.andReg x y) :=
  row_selects ⟨13, 0xF00F, 0x8002⟩ (by decide) rfl ((encodeRegReg_sub ..).trans (by decide))

theorem xorReg (x : Nibble) (y : Nibble) : Statement (.xorReg x y) :=
  row_selects ⟨14, 0xF00F, 0x8003⟩ (by decide) rfl ((encodeRegReg_sub ..).trans (by decide))

theorem addReg (x : Nibble) (y : Nibble) : Statement (.addReg x y) :=
  row_selects ⟨15, 0xF00F, 0x8004⟩ (by decide) rfl ((encodeRegReg_sub ..).trans (by decide))

theorem subReg (x : Nibble) (y : Nibble) : Statement (.subReg x y) :=
  row_selects ⟨16, 0xF00F, 0x8005⟩ (by decide) rfl ((encodeRegReg_sub ..).trans (by decide))

theorem shrReg (x : Nibble) (y : Nibble) : Statement (.shrReg x y) :=
  row_selects ⟨17, 0xF00F, 0x8006⟩ (by decide) rfl ((encodeRegReg_sub ..).trans (by decide))

theorem subnReg (x : Nibble) (y : Nibble) : Statement (.subnReg x y) :=
  row_selects ⟨18, 0xF00F, 0x8007⟩ (by decide) rfl ((encodeRegReg_sub ..).trans (by decide))

theorem shlReg (x : Nibble) (y : Nibble) : Statement (.shlReg x y) :=
  row_selects ⟨19, 0xF00F, 0x800E⟩ (by decide) rfl ((encodeRegReg_sub ..).trans (by decide))

theorem sneReg (x : Nibble) (y : Nibble) : Statement (.sneReg x y) :=
  row_selects ⟨20, 0xF00F, 0x9000⟩ (by decide) rfl ((encodeRegReg_sub ..).trans (by decide))

theorem ldI (nnn : Addr) : Statement (.ldI nnn) :=
  row_selects ⟨21, 0xF000, 0xA000⟩ (by decide) rfl ((encodeAddr_class ..).trans (by decide))

theorem jpV0 (nnn : Addr) : Statement (.jpV0 nnn) :=
  row_selects ⟨22, 0xF000, 0xB000⟩ (by decide) rfl ((encodeAddr_class ..).trans (by decide))

theorem rnd (x : Nibble) (nn : Byte) : Statement (.rnd x nn) :=
  row_selects ⟨23, 0xF000, 0xC000⟩ (by decide) rfl ((encodeRegImm_class ..).trans (by decide))

theorem drw (x : Nibble) (y : Nibble) (n : Nibble) : Statement (.drw x y n) :=
  row_selects ⟨24, 0xF000, 0xD000⟩ (by decide) rfl ((encodeRegReg_class ..).trans (by decide))

theorem skp (x : Nibble) : Statement (.skp x) :=
  row_selects ⟨25, 0xF0FF, 0xE09E⟩ (by decide) rfl ((encodeRegImm_sub ..).trans (by decide))

theorem sknp (x : Nibble) : Statement (.sknp x) :=
  row_selects ⟨26, 0xF0FF, 0xE0A1⟩ (by decide) rfl ((encodeRegImm_sub ..).trans (by decide))

theorem ldVxDt (x : Nibble) : Statement (.ldVxDt x) :=
  row_selects ⟨27, 0xF0FF, 0xF007⟩ (by decide) rfl ((encodeRegImm_sub ..).trans (by decide))

theorem ldVxK (x : Nibble) : Statement (.ldVxK x) :=
  row_selects ⟨28, 0xF0FF, 0xF00A⟩ (by decide) rfl ((encodeRegImm_sub ..).trans (by decide))

theorem ldDtVx (x : Nibble) : Statement (.ldDtVx x) :=
  row_selects ⟨29, 0xF0FF, 0xF015⟩ (by decide) rfl ((encodeRegImm_sub ..).trans (by decide))

theorem ldStVx (x : Nibble) : Statement (.ldStVx x) :=
  row_selects ⟨30, 0xF0FF, 0xF018⟩ (by decide) rfl ((encodeRegImm_sub ..).trans (by decide))

theorem addI (x : Nibble) : Statement (.addI x) :=
  row_selects ⟨31, 0xF0FF, 0xF01E⟩ (by decide) rfl ((encodeRegImm_sub ..).trans (by decide))

theorem ldF (x : Nibble) : Statement (.ldF x) :=
  row_selects ⟨32, 0xF0FF, 0xF029⟩ (by decide) rfl ((encodeRegImm_sub ..).trans (by decide))

theorem ldB (x : Nibble) : Statement (.ldB x) :=
  row_selects ⟨33, 0xF0FF, 0xF033⟩ (by decide) rfl ((encodeRegImm_sub ..).trans (by decide))

theorem stRegs (x : Nibble) : Statement (.stRegs x) :=
  row_selects ⟨34, 0xF0FF, 0xF055⟩ (by decide) rfl ((encodeRegImm_sub ..).trans (by decide))

theorem ldRegs (x : Nibble) : Statement (.ldRegs x) :=
  row_selects ⟨35, 0xF0FF, 0xF065⟩ (by decide) rfl ((encodeRegImm_sub ..).trans (by decide))

end Sys2Proof.Laws.OpcodeMapRow
end

