-- ==== Sys2Proof/Laws/Step.lean ====
section
/-! SUPPORT. What a step, a mode and a range check come to, and the display operations pixel by pixel, for proofs
to cite instead of unfolding the machine. -/

namespace Sys2Proof.Machine

/-- A step with a command scheduled is that command on the state without it (log 5). -/
theorem step_of_cons {s : State} {c : Command} {rest : List Command} (h : s.schedule = c :: rest) :
    step s = issue c (s.setPort rest s.fresh) := by
  unfold step; rw [h]

/-- A step that issues `STEP` is the `STEP` command (log 5). -/
theorem step_of_issuesStep {s : State} {rest : List Command} (h : s.issuesStep rest) :
    step s = stepCommand { s with schedule := rest, fresh := false } := by
  rcases h with ⟨h, rfl⟩ | h
  · unfold step; rw [h]; simp only [issue, State.issued, State.setPort, h]
  · rw [step_of_cons h]; rfl

theorem stepCommand_of_running {s : State} (h : s.mode = .running) : stepCommand s = runInstruction s := by
  simp [stepCommand, h]

theorem stepCommand_of_awaitingKey {s : State} (h : s.mode = .awaitingKey) : stepCommand s = .next (keyScan s) := by
  simp [stepCommand, h]

theorem stepCommand_of_halted {s : State} (h : s.mode = .halted) : stepCommand s = .next s := by
  simp [stepCommand, h]

/-- The mode looks at neither field of the command port. -/
theorem mode_port (s : State) (rest : List Command) (f : Bool) :
    State.mode { s with schedule := rest, fresh := f } = s.mode := rfl

/-- Memory looks at neither field of the command port. -/
theorem readMem_port (s : State) (rest : List Command) (f : Bool) (a : Nat) :
    State.readMem { s with schedule := rest, fresh := f } a = s.readMem a := rfl

theorem wordAtPc_port (s : State) (rest : List Command) (f : Bool) :
    wordAtPc { s with schedule := rest, fresh := f } = wordAtPc s := rfl

/-- A fetch that succeeds reads the word at `PC` (R103). -/
theorem runInstruction_of_fetch {s : State} (h : s.pc.toNat ≤ 0xFFE) :
    runInstruction s = match decode (wordAtPc s) with
      | .error _ => .next (s.fatal .unrecognizedOpcode (some (wordAtPc s)))
      | .ok i => exec i s := by
  unfold runInstruction; rw [fetchWord_eq h]; rfl

theorem runInstruction_of_no_fetch {s : State} (h : 0xFFF ≤ s.pc.toNat) :
    runInstruction s = .next (s.fatal .memoryOutOfRange none) := by
  unfold runInstruction; rw [fetchWord_none h]

/-- What an error shows the host (R40, R250, R256). -/
@[simp] theorem outputs_fatal_err (s : State) (e : ErrorCode) (op : Option Word) :
    (s.fatal e op).outputs.err = some ⟨e.number, s.pc, op⟩ := rfl

@[simp] theorem outputs_halted (s : State) : s.outputs.halted = s.halted := rfl

/-! The key scan (R213). -/

theorem keyScan_of_some {s : State} {k : Key} (h : lowestKey s = some k) :
    keyScan s = (s.writeV s.waitReg (keyByte k)).setWait false s.waitReg := by
  simp [keyScan, h]

theorem keyScan_of_none {s : State} (h : lowestKey s = none) : keyScan s = s := by
  simp [keyScan, h]

/-! The range-checked instructions: complete in range, raise out of it (R173 to R175, R193). -/

theorem not_inMemory {base len : Nat} (h0 : 0 < len) (h : 4096 < base + len) : ¬inMemory base len = true :=
  fun hc => by rcases inMemory_iff.mp hc with h | h <;> omega

theorem exec_ldB_of_le {x : Nibble} {s : State} (h : s.i.toNat ≤ 4093) :
    exec (.ldB x) s =
      .next ((s.storeBytes s.i.toNat (decimalDigits (s.readV x))).setPc (s.pc + 2)) := by
  have hi : inMemory s.i.toNat 3 = true := inMemory_iff.mpr (by omega)
  simp only [exec, execLdB, if_pos hi]; rfl

theorem exec_stRegs_of_le {x : Nibble} {s : State} (h : s.i.toNat + x.toNat ≤ 4095) :
    exec (.stRegs x) s =
      .next ((s.storeBytes s.i.toNat (registerBlock s x)).setPc (s.pc + 2)) := by
  have hi : inMemory s.i.toNat (x.toNat + 1) = true := inMemory_iff.mpr (by omega)
  simp only [exec, execStRegs, if_pos hi]; rfl

theorem exec_ldRegs_of_le {x : Nibble} {s : State} (h : s.i.toNat + x.toNat ≤ 4095) :
    exec (.ldRegs x) s = .next ((s.setRegs (loadBlock s x)).setPc (s.pc + 2)) := by
  have hi : inMemory s.i.toNat (x.toNat + 1) = true := inMemory_iff.mpr (by omega)
  simp only [exec, execLdRegs, if_pos hi]; rfl

theorem exec_drw_of_le {x y n : Nibble} {s : State} (h : n.toNat = 0 ∨ s.i.toNat + n.toNat ≤ 4096) :
    exec (.drw x y n) s =
      .next (((s.setDisplay (xorGrid s.px (spriteGrid s (originX s x) (originY s y) n.toNat)) true).writeV 0xF
        (flagByte (collisionFlag s.px (spriteGrid s (originX s x) (originY s y) n.toNat)))).setPc (s.pc + 2)) := by
  have hi : inMemory s.i.toNat n.toNat = true := inMemory_iff.mpr (by omega)
  simp only [exec, execDrw, if_pos hi, complete_eq, State.writeFlag, State.writeV_pc, State.setDisplay_pc]

/-- The stored register block reads back as the registers (R174). -/
theorem read_registerBlock {x j : Nibble} {s : State} (hm : Memory.wf s.font s.mem = true) (h : s.i.toNat + x.toNat ≤ 4095)
    (hj : j.toNat ≤ x.toNat) :
    (s.storeBytes s.i.toNat (registerBlock s x)).readMem (s.i.toNat + j.toNat) = s.readV j := by
  have hl : j.toNat < (registerBlock s x).length := by rw [registerBlock_length]; omega
  rw [State.readMem_storeBytes_inside hm (by rw [registerBlock_length]; omega) hl]
  exact registerBlock_getElem _ _ _ hl

/-! The sprite pixel by pixel (R191 to R194). -/

/-- A pixel of the sprite's grid is the sprite bit that falls on it. -/
theorem spriteGrid_pixel (s : State) (x y n : Nibble) (c : Fin 64) (r : Fin 32) :
    ((spriteGrid s (originX s x) (originY s y) n.toNat)[r]).getMsbD c.val = spriteBit s x y n c r := by
  rw [spriteGrid_row]
  unfold spriteBit originX originY
  simp only
  split
  · rename_i h
    rw [placeSpriteRow_pixel]
    by_cases hc : (s.readV x).toNat % 64 ≤ c.val ∧ c.val < (s.readV x).toNat % 64 + 8
    · simp only [hc, h, and_self, decide_true, Bool.true_and]
      rw [BitVec.getMsbD]
      simp; intro; omega
    · have : ¬((s.readV x).toNat % 64 ≤ c.val ∧ c.val < (s.readV x).toNat % 64 + 8 ∧
          (s.readV y).toNat % 32 ≤ r.val ∧ r.val < (s.readV y).toNat % 32 + n.toNat) := by omega
      simp [hc, this]
  · rename_i h
    have : ¬((s.readV x).toNat % 64 ≤ c.val ∧ c.val < (s.readV x).toNat % 64 + 8 ∧
        (s.readV y).toNat % 32 ≤ r.val ∧ r.val < (s.readV y).toNat % 32 + n.toNat) := by omega
    simp [this]

/-- Two display rows meet exactly where some column is set in both. -/
theorem row_and_ne_zero (a b : DispRow) :
    a &&& b ≠ 0 ↔ ∃ c : Fin 64, a.getMsbD c.val = true ∧ b.getMsbD c.val = true := by
  constructor
  · intro h
    by_contra hc
    push Not at hc
    exact h (BitVec.eq_of_getMsbD_eq fun i hi => by simpa using hc ⟨i, hi⟩)
  · rintro ⟨c, h1, h2⟩ h
    have := congrArg (fun z => z.getMsbD c.val) h
    simp [h1, h2] at this

/-! The timer (R234). -/

theorem countDown_toNat (b : Byte) : (countDown b).toNat = b.toNat - 1 := by
  unfold countDown
  split
  · simp [*]
  · rename_i hz
    have h2 : b.toNat ≠ 0 := fun hc => hz (BitVec.eq_of_toNat_eq hc)
    have := b.isLt
    simp [BitVec.toNat_sub]; omega

end Sys2Proof.Machine
end

