-- ==== Sys2Proof/Tests/Slice0.lean ====
section
/-! SUPPORT. The model's own tests. Every expected value is one of spec/95_test_vectors.md (named `V-…` or `S…`
there) or of the rule a comment names. The last part holds, for each statement of Certificates/Slice0 that has
hypotheses, states and operands that meet all of them together, at the edges of each clause. -/

namespace Sys2Proof.Tests

open Sys2Proof.Machine

/-! Helpers: a start state of spec/95 and what a step answers. -/

/-- The state after `RESET` with one instruction word at `0x200`. -/
def start (w : Nat) : State := State.reset.withFetchWord 16 w

def withV (s : State) (x : Nibble) (b : Byte) : State := s.writeV x b

def withMem (s : State) (a : Nat) (bs : List Byte) : State := s.storeBytes a bs

/-- A view of the next state; none for a fault or a refusal. -/
def after {α : Type} (r : Result) (view : State → α) : Option α :=
  match r with
  | .next t => some (view t)
  | _ => none

/-- Two registers, then `PC`. -/
def view2 (x y : Nibble) (t : State) : Byte × Byte × Word := (t.readV x, t.readV y, t.pc)

/-- What an error leaves: halted, the record, `PC`. -/
def viewErr (t : State) : Bool × Option ErrorRecord × Word := (t.halted, t.err, t.pc)

/-- The state one command later. -/
def issueNext (c : Command) (s : State) : State := (after (issue c s) id).getD s

/-! Well-formedness: the two words taken out of `0NNN` (R85). -/

theorem test_wf_refuses_sys_cls : (Instr.sys 0x0E0).wf = false := by decide
theorem test_wf_refuses_sys_ret : (Instr.sys 0x0EE).wf = false := by decide
theorem test_wf_accepts_sys_zero : (Instr.sys 0x000).wf = true := by decide

/-! Decoding: a word for every constructor, its digits written out from R82 and R86. -/

theorem test_decode_class_0 :
    decode 0x00E0 = .ok .cls ∧ decode 0x00EE = .ok .ret ∧ decode 0x0123 = .ok (.sys 0x123) ∧
    decode 0x0000 = .ok (.sys 0) ∧ decode 0x00E1 = .ok (.sys 0x0E1) := by decide
theorem test_decode_jumps :
    decode 0x1ABC = .ok (.jp 0xABC) ∧ decode 0x2ABC = .ok (.call 0xABC) ∧ decode 0xBABC = .ok (.jpV0 0xABC) := by decide
theorem test_decode_skips :
    decode 0x3A42 = .ok (.seImm 0xA 0x42) ∧ decode 0x4A42 = .ok (.sneImm 0xA 0x42) ∧
    decode 0x5AB0 = .ok (.seReg 0xA 0xB) ∧ decode 0x9AB0 = .ok (.sneReg 0xA 0xB) := by decide
theorem test_decode_immediates :
    decode 0x6A42 = .ok (.ldImm 0xA 0x42) ∧ decode 0x730A = .ok (.addImm 3 10) ∧
    decode 0xCA0F = .ok (.rnd 0xA 0x0F) := by decide
theorem test_decode_class_8 :
    decode 0x8AB0 = .ok (.ldReg 0xA 0xB) ∧ decode 0x8AB1 = .ok (.orReg 0xA 0xB) ∧
    decode 0x8AB2 = .ok (.andReg 0xA 0xB) ∧ decode 0x8AB3 = .ok (.xorReg 0xA 0xB) ∧
    decode 0x8AB4 = .ok (.addReg 0xA 0xB) ∧ decode 0x8AB5 = .ok (.subReg 0xA 0xB) ∧
    decode 0x8AB6 = .ok (.shrReg 0xA 0xB) ∧ decode 0x8AB7 = .ok (.subnReg 0xA 0xB) ∧
    decode 0x8ABE = .ok (.shlReg 0xA 0xB) := by decide
theorem test_decode_index_and_display :
    decode 0xA123 = .ok (.ldI 0x123) ∧ decode 0xD125 = .ok (.drw 1 2 5) := by decide
theorem test_decode_class_E : decode 0xE59E = .ok (.skp 5) ∧ decode 0xE1A1 = .ok (.sknp 1) := by decide
theorem test_decode_class_F :
    decode 0xFA07 = .ok (.ldVxDt 0xA) ∧ decode 0xF30A = .ok (.ldVxK 3) ∧ decode 0xFA15 = .ok (.ldDtVx 0xA) ∧
    decode 0xFA18 = .ok (.ldStVx 0xA) ∧ decode 0xFA1E = .ok (.addI 0xA) ∧ decode 0xFA29 = .ok (.ldF 0xA) ∧
    decode 0xFA33 = .ok (.ldB 0xA) ∧ decode 0xF355 = .ok (.stRegs 3) ∧ decode 0xF365 = .ok (.ldRegs 3) := by decide
/-- V-DEC-1 to V-DEC-9. -/
theorem test_decode_unrecognized :
    [0x5011, 0x8008, 0x9001, 0xF000, 0xFFFF, 0xF166, 0xE09F, 0xE000, 0x8ABF].map decode =
      List.replicate 9 (.error .unrecognizedOpcode) := by decide
/-- Two bytes in address order are one word, high byte first (R63, R80); one byte is none. -/
theorem test_decodeBytes :
    decodeBytes [0x6A, 0x42, 0x99] = .ok (.ldImm 0xA 0x42, [0x99]) ∧ decodeBytes [0x6A] = .error .tooFewBytes := by decide
/-- The opcode map has 35 rows, numbered 1 to 35 (R86). -/
theorem test_opcode_map_rows : opcodeMap.map OpcodeRow.num = (List.range 35).map (· + 1) := by decide

/-! Control transfer. -/

/-- V-CF-1. -/
theorem test_jp : after (step (start 0x1ABC)) State.pc = some 0xABC := by decide
/-- V-CF-3. -/
theorem test_call :
    after (step (start 0x2300)) (fun t => (t.pc, t.sp.val, t.stack[0])) = some (0x300, 1, 0x202) := by decide
/-- V-CF-6. -/
theorem test_call_full :
    after (step { start 0x2300 with sp := 16 }) viewErr =
      some (true, some ⟨.stackOverflow, 0x200, some 0x2300⟩, 0x200) := by decide
/-- V-CF-23. -/
theorem test_ret :
    after (step { start 0x00EE with sp := 2, stack := (Vector.replicate 16 0).set 1 0x345 })
      (fun t => (t.pc, t.sp.val, t.stack[1])) = some (0x345, 1, 0x345) := by decide
/-- V-CF-5. -/
theorem test_ret_empty :
    after (step (start 0x00EE)) viewErr = some (true, some ⟨.stackUnderflow, 0x200, some 0x00EE⟩, 0x200) := by decide
/-- V-CF-21. -/
theorem test_sys :
    after (step (start 0x0123)) viewErr =
      some (true, some ⟨.unsupportedMachineRoutine, 0x200, some 0x0123⟩, 0x200) := by decide
/-- V-CF-8. -/
theorem test_jpV0 : after (step (withV (start 0xB300) 0 4)) State.pc = some 0x304 := by decide
/-- V-CF-9: the sum is not masked to 12 bits. -/
theorem test_jpV0_unmasked : after (step (withV (start 0xBFFF) 0 0xFF)) State.pc = some 0x10FE := by decide
/-- V-CF-10, V-CF-11. -/
theorem test_seImm :
    after (step (withV (start 0x3A42) 0xA 0x42)) State.pc = some 0x204 ∧
    after (step (withV (start 0x3A42) 0xA 0x43)) State.pc = some 0x202 := by decide
/-- V-CF-12, V-CF-13. -/
theorem test_sneImm :
    after (step (withV (start 0x4A42) 0xA 0x42)) State.pc = some 0x202 ∧
    after (step (withV (start 0x4A42) 0xA 0x43)) State.pc = some 0x204 := by decide
/-- V-CF-14, V-CF-15. -/
theorem test_seReg :
    after (step (withV (withV (start 0x5AB0) 0xA 7) 0xB 7)) State.pc = some 0x204 ∧
    after (step (withV (withV (start 0x5AB0) 0xA 7) 0xB 8)) State.pc = some 0x202 := by decide
/-- V-CF-16, V-CF-17. -/
theorem test_sneReg :
    after (step (withV (withV (start 0x9AB0) 0xA 7) 0xB 7)) State.pc = some 0x202 ∧
    after (step (withV (withV (start 0x9AB0) 0xA 7) 0xB 8)) State.pc = some 0x204 := by decide

/-! Register loads and the ALU. -/

/-- V-ALU-1. -/
theorem test_ldImm : after (step (start 0x6A42)) (view2 0xA 0xF) = some (0x42, 0, 0x202) := by decide
/-- V-ALU-3: wraps, no flag. -/
theorem test_addImm_wraps :
    after (step (withV (withV (start 0x730A) 3 250) 0xF 0xAA)) (view2 3 0xF) = some (4, 0xAA, 0x202) := by decide
/-- V-ALU-5. -/
theorem test_ldReg : after (step (withV (start 0x8AB0) 0xB 0x5A)) (view2 0xA 0xB) = some (0x5A, 0x5A, 0x202) := by decide

/-- `VA`, `VB` and `VF` before one class-8 word. -/
def alu (w : Nat) (a b f : Byte) : State := withV (withV (withV (start w) 0xA a) 0xB b) 0xF f

/-- V-ALU-6. -/
theorem test_orReg : after (step (alu 0x8AB1 0xF0 0x0F 0x77)) (view2 0xA 0xF) = some (0xFF, 0x77, 0x202) := by decide
/-- V-ALU-7. -/
theorem test_andReg : after (step (alu 0x8AB2 0xF3 0x3C 0x77)) (view2 0xA 0xF) = some (0x30, 0x77, 0x202) := by decide
/-- V-ALU-8. -/
theorem test_xorReg : after (step (alu 0x8AB3 0xF3 0x3C 0x77)) (view2 0xA 0xF) = some (0xCF, 0x77, 0x202) := by decide
/-- V-ALU-9, V-ALU-11: carry, and a sum of exactly 255. -/
theorem test_addReg :
    after (step (alu 0x8AB4 200 100 0)) (view2 0xA 0xF) = some (44, 1, 0x202) ∧
    after (step (alu 0x8AB4 100 155 1)) (view2 0xA 0xF) = some (0xFF, 0, 0x202) := by decide
/-- V-ALU-20, V-ALU-21: the flag wins in `VF`; `VF` is an operand before it is written. -/
theorem test_addReg_VF :
    after (step (withV (withV (start 0x8F14) 0xF 200) 1 100)) (view2 0xF 1) = some (1, 100, 0x202) ∧
    after (step (withV (withV (start 0x80F4) 0xF 255) 0 1)) (view2 0 0xF) = some (0, 1, 0x202) := by decide
/-- V-ALU-14, V-ALU-15. -/
theorem test_subReg :
    after (step (alu 0x8AB5 3 5 1)) (view2 0xA 0xF) = some (0xFE, 0, 0x202) ∧
    after (step (alu 0x8AB5 7 7 0)) (view2 0xA 0xF) = some (0, 1, 0x202) := by decide
/-- V-ALU-17, V-ALU-17b: `VB` is not read. -/
theorem test_shrReg :
    after (step (alu 0x8AB6 5 0xFF 0)) (view2 0xA 0xF) = some (2, 1, 0x202) ∧
    after (step (alu 0x8AB6 4 0xFF 1)) (view2 0xA 0xF) = some (2, 0, 0x202) := by decide
/-- V-ALU-16, V-ALU-16b. -/
theorem test_subnReg :
    after (step (alu 0x8AB7 3 5 0)) (view2 0xA 0xF) = some (2, 1, 0x202) ∧
    after (step (alu 0x8AB7 5 3 1)) (view2 0xA 0xF) = some (0xFE, 0, 0x202) := by decide
/-- V-ALU-18, V-ALU-18b. -/
theorem test_shlReg :
    after (step (alu 0x8ABE 0x81 0x33 0)) (view2 0xA 0xF) = some (2, 1, 0x202) ∧
    after (step (alu 0x8ABE 0x40 0x33 1)) (view2 0xA 0xF) = some (0x80, 0, 0x202) := by decide
/-- V-ALU-23: the shifted `VF` is replaced by the bit shifted out. -/
theorem test_shrReg_VF : after (step (withV (start 0x8F06) 0xF 2)) (view2 0xF 0) = some (0, 0, 0x202) := by decide

/-! Index register and memory. -/

/-- V-MEM-1. -/
theorem test_ldI : after (step (start 0xA123)) (fun t => (t.i, t.pc)) = some (0x123, 0x202) := by decide
/-- V-MEM-3, V-MEM-4. -/
theorem test_addI :
    after (step (withV { start 0xFA1E with i := 0xFFF } 0xA 1)) State.i = some 0x1000 ∧
    after (step (withV { start 0xFA1E with i := 0xFFFF } 0xA 2)) State.i = some 1 := by decide
/-- V-MEM-5b, V-MEM-5e. -/
theorem test_ldF :
    after (step (withV (start 0xFA29) 0xA 0x0A)) State.i = some 0x32 ∧
    after (step (withV (start 0xFA29) 0xA 0xFF)) State.i = some 0x4FB := by decide

/-- The bytes at three addresses. -/
def view3 (a : Nat) (t : State) : List Byte := [t.readMem a, t.readMem (a + 1), t.readMem (a + 2)]

/-- V-MEM-6, V-MEM-8. -/
theorem test_ldB :
    after (step (withV { withMem (start 0xFA33) 0x300 [0xAA, 0xAA, 0xAA] with i := 0x300 } 0xA 157)) (view3 0x300) =
      some [1, 5, 7] ∧
    after (step (withV { start 0xFA33 with i := 0xFFD } 0xA 123)) (view3 0xFFD) = some [1, 2, 3] := by decide
/-- V-MEM-8b. -/
theorem test_ldB_out_of_range :
    after (step (withV { start 0xFA33 with i := 0xFFE } 0xA 123)) (fun t => (viewErr t, t.readMem 0xFFE)) =
      some ((true, some ⟨.memoryOutOfRange, 0x200, some 0xFA33⟩, 0x200), 0) := by decide
/-- V-MEM-9, cut to `V0` to `V1`: the byte after the block stays. -/
theorem test_stRegs :
    after (step (withV (withV { withMem (start 0xF155) 0x402 [0xEE] with i := 0x400 } 0 0x11) 1 0x22))
      (fun t => (view3 0x400 t, t.i)) = some ([0x11, 0x22, 0xEE], 0x400) := by decide
/-- V-MEM-16: address 65535 does not wrap. -/
theorem test_stRegs_out_of_range :
    after (step (withV { start 0xF055 with i := 0xFFFF } 0 7)) viewErr =
      some (true, some ⟨.memoryOutOfRange, 0x200, some 0xF055⟩, 0x200) := by decide
/-- V-MEM-11, cut to `V0` to `V1`: the register above the block stays. -/
theorem test_ldRegs :
    after (step (withV { withMem (start 0xF165) 0x400 [0xDE, 0xAD, 0xBE] with i := 0x400 } 2 0x99))
      (fun t => (t.readV 0, t.readV 1, t.readV 2, t.i)) = some (0xDE, 0xAD, 0x99, 0x400) := by decide
/-- V-MEM-14. -/
theorem test_ldRegs_out_of_range :
    after (step (withV { withMem (start 0xF365) 0xFFD [9, 9, 9] with i := 0xFFD } 0 1)) (fun t => (viewErr t, t.readV 0)) =
      some ((true, some ⟨.memoryOutOfRange, 0x200, some 0xF365⟩, 0x200), 1) := by decide

/-! Display. -/

/-- A display with one row, 0, given. -/
def withRow0 (s : State) (row : DispRow) : State := s.setDisplay ((Vector.replicate 32 0).set 0 row) false

/-- Row 0 and row 31, `VF`, `changed`. -/
def viewDraw (t : State) : DispRow × DispRow × Byte × Bool := (t.px[0], t.px[31], t.readV 0xF, t.changed)

/-- V-DRW-1. -/
theorem test_cls : after (step (withRow0 (start 0x00E0) 0xFFFF)) viewDraw = some (0, 0, 0, true) := by decide
/-- V-DRW-7, V-DRW-8: collision, and a 0 bit over a set pixel. -/
theorem test_drw_collision :
    after (step (withRow0 { withMem (start 0xD011) 0x300 [0xC0] with i := 0x300 } 0x8000000000000000)) viewDraw =
      some (0x4000000000000000, 0, 1, true) ∧
    after (step (withRow0 (withV { withMem (start 0xD011) 0x300 [0x40] with i := 0x300 } 0xF 1) 0x8000000000000000))
      viewDraw = some (0xC000000000000000, 0, 0, true) := by decide
/-- V-DRW-3: clipped at column 63 and row 31, not wrapped. -/
theorem test_drw_clips :
    after (step (withV (withV { withMem (start 0xD012) 0x300 [0xFF, 0x81] with i := 0x300 } 0 60) 1 31)) viewDraw =
      some (0, 0xF, 0, true) := by decide

/-! Keys, timers, random. -/

/-- V-KEY-1, V-KEY-3. -/
theorem test_skp :
    after (step (keyDown 5 (withV (start 0xE09E) 0 5))) State.pc = some 0x204 ∧
    after (step (withV (start 0xE09E) 0 16)) viewErr =
      some (true, some ⟨.keyIndexOutOfRange, 0x200, some 0xE09E⟩, 0x200) := by decide
/-- V-KEY-2, V-KEY-2b. -/
theorem test_sknp :
    after (step (keyDown 5 (withV (start 0xE0A1) 0 5))) State.pc = some 0x202 ∧
    after (step (withV (start 0xE0A1) 0 5)) State.pc = some 0x204 := by decide
/-- V-KEY-5a. -/
theorem test_ldVxK :
    after (step (withV (start 0xF30A) 3 0x77)) (fun t => (t.mode, t.waitReg, t.readV 3, t.pc)) =
      some (.awaitingKey, 3, 0x77, 0x202) := by decide
/-- R213's example: keys 7 and 2 down give the register 2. -/
theorem test_key_scan :
    after (step (keyDown 7 (keyDown 2 { start 0x6101 with waitKey := true, waitReg := 3 })))
      (fun t => (t.mode, t.readV 3, t.readV 1, t.pc)) = some (.running, 2, 0, 0x200) := by decide
/-- V-TMR-3. -/
theorem test_ldVxDt : after (step { start 0xFA07 with dt := 0x21 }) (fun t => (t.readV 0xA, t.dt)) = some (0x21, 0x21) := by decide
/-- V-TMR-1. -/
theorem test_ldDtVx : after (step (withV (start 0xFA15) 0xA 0x3C)) State.dt = some 60 := by decide
/-- V-TMR-2. -/
theorem test_ldStVx :
    after (step (withV (start 0xFA18) 0xA 5)) (fun t => (t.st, t.outputs.tone)) = some (5, true) := by decide
/-- V-RND-1, V-RND-3: with the drawn byte given, so that the free value plays no part. -/
theorem test_rnd :
    after (rndWith 0xB7 0xA 0x0F (start 0xCA0F)) (view2 0xA 0xF) = some (7, 0, 0x202) ∧
    after (rndWith 0xB7 0xA 0x00 (withV (start 0xCA00) 0xA 0x55)) (view2 0xA 0xF) = some (0, 0, 0x202) := by decide

/-! Fetch and the host's commands. -/

/-- V-DEC-1. -/
theorem test_unrecognized :
    after (step (start 0x5011)) viewErr = some (true, some ⟨.unrecognizedOpcode, 0x200, some 0x5011⟩, 0x200) := by decide
/-- V-DEC-14, V-DEC-16: the fetch at `0xFFF` is fatal, an odd `PC` is not. -/
theorem test_fetch_range :
    after (step { start 0x6A42 with pc := 0xFFF }) viewErr = some (true, some ⟨.memoryOutOfRange, 0xFFF, none⟩, 0xFFF) ∧
    after (step { withMem (start 0x0000) 0x201 [0x6A, 0x42] with pc := 0x201 }) (view2 0xA 0xF) =
      some (0x42, 0, 0x203) := by decide
/-- V-HOST-6: after `RESET` alone the first `STEP` fetches `0x0000`. -/
theorem test_step_from_reset :
    after (step State.reset) viewErr =
      some (true, some ⟨.unsupportedMachineRoutine, 0x200, some 0⟩, 0x200) := by decide
/-- V-HOST-2. -/
theorem test_load :
    after (issue (.load [0x60, 0x01, 0x70]) State.reset)
      (fun t => ((List.range 4).map fun j => t.readMem (0x200 + j), t.pc)) = some ([0x60, 0x01, 0x70, 0], 0x200) := by decide
/-- A program comes to run from reset by a `LOAD` on the schedule (R281; log 12). -/
theorem test_load_then_step :
    let s := { State.reset with schedule := [.load [0x6A, 0x42], .step] }
    (after (step s) step).bind (fun r => after r (view2 0xA 0xF)) = some (0x42, 0, 0x202) := by decide
/-- V-TMR-5, V-TMR-6. -/
theorem test_tick :
    after (issue .tick { start 0 with dt := 255, st := 2 }) (fun t => (t.dt, t.st)) = some (254, 1) ∧
    after (issue .tick { issueNext .step { start 0 with dt := 9, st := 9 } with fresh := false })
      (fun t => (t.dt, t.st, t.halted)) = some (9, 9, true) := by decide
/-- V-KEY-9. -/
theorem test_key_commands :
    (let t := keyUp 5 (keyUp 3 (keyUp 3 (keyDown 3 (keyDown 3 (start 0x1200)))))
     (t.key, t.lastKey)) = (Vector.replicate 16 false, some 3) := by decide
/-- V-HOST-3. -/
theorem test_present :
    after (issue .present { withRow0 (start 0) 1 with changed := true }) (fun t => (t.changed, t.px[0])) =
      some (false, 1) := by decide
/-- V-HOST-5: `RESET` out of mode Halted. -/
theorem test_reset :
    after (issue .reset (keyDown 1 (issueNext .step (start 0x0000)))) id = some State.reset := by decide
/-- The six codes as the output `err` shows them: V-DEC-1, V-DEC-10, V-MEM-16, V-CF-6, V-CF-5, V-KEY-3. -/
theorem test_error_numbers :
    [start 0x5011, start 0x0000, { start 0xF055 with i := 0xFFFF }, { start 0x2300 with sp := 16 }, start 0x00EE,
      withV (start 0xE09E) 0 16].map (fun s => after (step s) fun t => t.outputs.err.map ErrorReport.code) =
      [some (some 1), some (some 2), some (some 3), some (some 4), some (some 5), some (some 6)] := by decide
/-- V-DEC-14: the fetch error shows no word. -/
theorem test_error_report_of_fetch :
    after (step { start 0 with pc := 0xFFF }) (fun t => t.outputs.err) = some (some ⟨3, 0xFFF, none⟩) := by decide
/-- `RESET` puts the machine's own `FONT` at `0x000` to `0x04F` and 0 above it (R42), whatever `FONT` is. -/
theorem test_reset_other_font :
    after (issue .reset (issueNext .step (State.resetWith (Vector.replicate 80 0x55))))
      (fun t => (t.readMem 0, t.readMem 0x4F, t.readMem 0x50)) = some (0x55, 0x55, 0) := by decide
/-- The first glyph of the table R31 prints, and glyph A (P8). -/
theorem test_font :
    (List.range 5).map State.reset.readMem = [0xF0, 0x90, 0x90, 0x90, 0xF0] ∧
    (List.range 5).map (fun j => State.reset.readMem (0x32 + j)) = [0xF0, 0x90, 0xF0, 0x90, 0x90] := by decide

/-! Witnesses: the hypotheses of the statements can be met. Each is named after its statement. -/

/-- After `RESET` and another command, with a word at `0x200`: what the per-instruction witnesses start from. -/
def base (w : Nat) : State := { start w with fresh := false }

/-- In mode AwaitingKey for register 3. -/
def waiting : State := { base 0x6101 with waitKey := true, waitReg := 3 }

/-- In mode Halted. -/
def dead : State := issueNext .step (start 0x0000)

theorem witness_DecodeOfEncode :
    (Instr.sys 0xFFF).wf = true ∧ (Instr.cls).wf = true ∧ (Instr.drw 0xF 0xF 0xF).wf = true := by decide
theorem witness_EncodeOfDecode :
    decode 0x8FF6 = .ok (.shrReg 0xF 0xF) ∧ decode 0x0FFF = .ok (.sys 0xFFF) := by decide
theorem witness_DecoderFollowsOpcodeMap :
    decode 0xE0A1 = .ok (.sknp 0) ∧ decode 0xE0A2 = .error .unrecognizedOpcode ∧
    ∀ r ∈ opcodeMap, r.selects 0xE0A2 = false := by decide
theorem witness_OpcodeRowsOverlapOnlyInClassZero :
    let r1 : OpcodeRow := ⟨1, 0xFFFF, 0x00E0⟩
    let r2 : OpcodeRow := ⟨2, 0xFFFF, 0x00EE⟩
    let r3 : OpcodeRow := ⟨3, 0xF000, 0x0000⟩
    r1 ∈ opcodeMap ∧ r2 ∈ opcodeMap ∧ r3 ∈ opcodeMap ∧ r1.selects 0x00E0 = true ∧ r3.selects 0x00E0 = true ∧
    r2.selects 0x00EE = true ∧ r3.selects 0x00EE = true := by decide
/-- The words at the edges of each class of R88. -/
theorem witness_UnrecognizedWords :
    [0x5001, 0x5FFF, 0x8008, 0x800D, 0x800F, 0x900F, 0xE09D, 0xE0FF, 0xF006, 0xF066].map decode =
      List.replicate 10 (.error .unrecognizedOpcode) ∧
    decode 0x8007 = .ok (.subnReg 0 0) ∧ decode 0x800E = .ok (.shlReg 0 0) := by decide

/-- With an empty schedule and with `STEP` scheduled, at `0x200` and at the last address a fetch can start. -/
theorem witness_StepRunsDecodedInstruction :
    (let s := base 0x6A42
     s.issuesStep [] ∧ s.mode = .running ∧ s.pc.toNat ≤ 0xFFE ∧ decode (wordAtPc s) = .ok (.ldImm 0xA 0x42)) ∧
    (let s := { withMem (base 0) 0xFFE [0x1F, 0xFE] with pc := 0xFFE, schedule := [.step, .tick] }
     s.issuesStep [.tick] ∧ s.mode = .running ∧ s.pc.toNat ≤ 0xFFE ∧ decode (wordAtPc s) = .ok (.jp 0xFFE)) :=
  ⟨⟨.inl ⟨rfl, rfl⟩, by decide⟩, .inr rfl, by decide⟩
theorem witness_FetchIsBigEndianAndBounded :
    (let s := { base 0 with pc := 0xFFE }; s.issuesStep [] ∧ s.mode = .running ∧ s.pc.toNat < 0xFFF) ∧
    (let s := { base 0 with pc := 0xFFF }; s.issuesStep [] ∧ s.mode = .running ∧ s.pc.toNat ≥ 0xFFF) :=
  ⟨⟨.inl ⟨rfl, rfl⟩, by decide⟩, .inl ⟨rfl, rfl⟩, by decide⟩
theorem witness_HaltedStepChangesNothing : dead.issuesStep [] ∧ dead.mode = .halted :=
  ⟨.inl ⟨by decide, rfl⟩, by decide⟩
/-- Only key 15 down, then keys 0 and 15, then none. -/
theorem witness_KeyScanTakesLowestKey :
    (let s := keyDown 15 waiting
     s.issuesStep [] ∧ s.mode = .awaitingKey ∧ s.key[(15 : Key)] = true ∧ ∀ j : Key, j < 15 → s.key[j] = false) ∧
    (let s := keyDown 15 (keyDown 0 waiting)
     s.issuesStep [] ∧ s.mode = .awaitingKey ∧ s.key[(0 : Key)] = true ∧ ∀ j : Key, j < 0 → s.key[j] = false) ∧
    (waiting.issuesStep [] ∧ waiting.mode = .awaitingKey ∧ ∀ k : Key, waiting.key[k] = false) :=
  ⟨⟨.inl ⟨rfl, rfl⟩, by decide⟩, ⟨.inl ⟨rfl, rfl⟩, by decide⟩, .inl ⟨rfl, rfl⟩, by decide⟩
/-- An error of the fetch, of decoding, of an instruction, and none. -/
theorem witness_FatalErrorEntryIsPrecise :
    (let s := { base 0 with pc := 0xFFF }
     s.issuesStep [] ∧ s.mode = .running ∧ stepError s = some (.memoryOutOfRange, none)) ∧
    (let s := base 0x5011
     s.issuesStep [] ∧ s.mode = .running ∧ stepError s = some (.unrecognizedOpcode, some 0x5011)) ∧
    (let s := base 0x00EE
     s.issuesStep [] ∧ s.mode = .running ∧ stepError s = some (.stackUnderflow, some 0x00EE)) ∧
    (let s := base 0x6A42
     s.issuesStep [] ∧ s.mode = .running ∧ stepError s = none) :=
  ⟨⟨.inl ⟨rfl, rfl⟩, by decide⟩, ⟨.inl ⟨rfl, rfl⟩, by decide⟩, ⟨.inl ⟨rfl, rfl⟩, by decide⟩, .inl ⟨rfl, rfl⟩, by decide⟩
theorem load_too_long (s : State) (bytes : List Byte) (hf : s.fresh = true) (hl : 3584 < bytes.length) :
    step { s with schedule := [.load bytes] } = .refused .loadTooLong := by
  show load bytes _ = _
  unfold load
  rw [if_neg (by show ¬s.fresh = false; rw [hf]; decide), if_neg (Nat.not_le.mpr hl)]

/-- The fetch error, with no word, and an error with one. -/
theorem witness_RaisedErrorIsReported :
    (let s := { base 0 with pc := 0xFFF }
     s.issuesStep [] ∧ s.mode = .running ∧ stepError s = some (.memoryOutOfRange, none)) ∧
    (let s := withV (base 0xE09E) 0 16
     s.issuesStep [] ∧ s.mode = .running ∧ stepError s = some (.keyIndexOutOfRange, some 0xE09E)) :=
  ⟨⟨.inl ⟨rfl, rfl⟩, by decide⟩, .inl ⟨rfl, rfl⟩, by decide⟩
/-- A `LOAD` after `RESET`, one byte more than the largest program, and one not after `RESET`. -/
theorem witness_OnlyLoadIsRefused :
    (let s := { State.reset with schedule := [.load []] }
     ∃ t : State, step s = .next t ∧ s.fresh = true) ∧
    (let s := { State.reset with schedule := [.load (List.replicate 3585 0)] }
     s.fresh = true ∧ (List.replicate 3585 (0 : Byte)).length > 3584 ∧ step s = .refused .loadTooLong) ∧
    (let s := { base 0 with schedule := [.load []] }
     s.fresh = false ∧ step s = .refused .loadNotAfterReset) := by
  have hl : (List.replicate 3585 (0 : Byte)).length > 3584 := by rw [List.length_replicate]; decide
  exact ⟨⟨_, rfl, rfl⟩, ⟨rfl, hl, load_too_long State.reset _ rfl hl⟩, rfl, rfl⟩
theorem witness_OnlyResetLeavesHalted :
    (let s := { dead with schedule := [.reset] }
     s.halted = true ∧ s.fresh = false ∧ ∃ t : State, step s = .next t ∧ t.halted = false) ∧
    (let s := { dead with schedule := [.keyDown 1] }
     s.halted = true ∧ s.fresh = false ∧ ∃ t : State, step s = .next t ∧ t.halted = true) :=
  ⟨⟨by decide, by decide, _, rfl, rfl⟩, by decide, by decide, _, rfl, by decide⟩
theorem witness_KeyWaitEndsOnlyByKeyOrReset :
    (let s := keyDown 4 waiting
     s.mode = .awaitingKey ∧ ∃ t : State, step s = .next t ∧ t.mode = .running) ∧
    (let s := { waiting with schedule := [.keyDown 4] }
     s.mode = .awaitingKey ∧ ∃ t : State, step s = .next t ∧ t.mode = .awaitingKey) ∧
    (let s := { waiting with schedule := [.reset] }
     s.mode = .awaitingKey ∧ ∃ t : State, step s = .next t ∧ t.mode = .running) :=
  ⟨⟨by decide, _, rfl, by decide⟩, ⟨by decide, _, rfl, by decide⟩, by decide, _, rfl, by decide⟩

/-- A stack of one entry, a full one, and an empty one. -/
theorem witness_ReturnPopsStack :
    (let s := { base 0x00EE with sp := 1 }; 0 < s.sp.val ∧ (0 : Fin 16).val + 1 = s.sp.val) ∧
    (let s := { base 0x00EE with sp := 16 }; 0 < s.sp.val ∧ (15 : Fin 16).val + 1 = s.sp.val) ∧
    (base 0x00EE).sp.val = 0 := by decide
/-- Depth 15, the last that can be pushed on, and depth 16. -/
theorem witness_CallPushesReturnAddress :
    ({ base 0x2300 with sp := 15 } : State).sp.val < 16 ∧ ({ base 0x2300 with sp := 16 } : State).sp.val = 16 := by decide
theorem witness_CallThenReturn : ({ base 0x2300 with sp := 15 } : State).sp.val < 16 := by decide

/-- Digit F, the last glyph, and a `FONT` that is not the default. -/
theorem witness_IndexPointsAtGlyph :
    let s := withV (State.resetWith (Vector.replicate 80 0x55)) 0xA 0xF
    (s.readV 0xA).toNat < 16 ∧ ∀ (a : Nat) (h : a < 80), s.readMem a = s.font[a] :=
  ⟨by decide, fun _ h => resetByte_of_lt h⟩
/-- The last address `FX33` stores from, and one more. -/
theorem witness_DecimalDigitsAreStored :
    (let s := { base 0xFA33 with i := 4093 }; Memory.wf s.font s.mem = true ∧ s.i.toNat ≤ 4093) ∧
    (let s := { base 0xFA33 with i := 4094 }; Memory.wf s.font s.mem = true ∧ s.i.toNat > 4093) := by decide
theorem witness_RegistersAreStored :
    (let s := { base 0xFF55 with i := 4080 }; Memory.wf s.font s.mem = true ∧ s.i.toNat + (0xF : Nibble).toNat ≤ 4095) ∧
    (let s := { base 0xFF55 with i := 4081 }; Memory.wf s.font s.mem = true ∧ s.i.toNat + (0xF : Nibble).toNat > 4095) := by decide
theorem witness_RegistersAreLoaded :
    ({ base 0xFF65 with i := 4080 } : State).i.toNat + (0xF : Nibble).toNat ≤ 4095 ∧
    ({ base 0xFF65 with i := 4081 } : State).i.toNat + (0xF : Nibble).toNat > 4095 := by decide
theorem witness_StoreThenLoadGivesRegistersBack :
    let s := { base 0xFF55 with i := 4080 }
    Memory.wf s.font s.mem = true ∧ s.i.toNat + (0xF : Nibble).toNat ≤ 4095 := by decide
theorem witness_StoredWordIsFetchedNext :
    let s := { base 0xF155 with pc := 0xFFC, i := 0xFFE }
    Memory.wf s.font s.mem = true ∧ 1 ≤ (1 : Nibble).toNat ∧ s.i = s.pc + 2 ∧ s.i.toNat + (1 : Nibble).toNat ≤ 4095 := by decide

/-- No row anywhere, the last rows of memory, one row too many; with a collision and without one. -/
theorem witness_DrawXorsSprite :
    ((0 : Nibble).toNat = 0 ∧ ({ base 0xD010 with i := 0xFFFF } : State).i.toNat + (0 : Nibble).toNat > 4096) ∧
    ({ base 0xD01F with i := 4081 } : State).i.toNat + (0xF : Nibble).toNat ≤ 4096 ∧
    (0 < (0xF : Nibble).toNat ∧ ({ base 0xD01F with i := 4082 } : State).i.toNat + (0xF : Nibble).toNat > 4096) ∧
    (let s := withRow0 { withMem (base 0xD011) 0x300 [0x80] with i := 0x300 } 0x8000000000000000
     spriteBit s 0 1 1 0 0 = true ∧ s.pixel 0 0 = true) := by decide
theorem witness_DrawXorsSprite_no_collision :
    ∀ (c : Fin 64) (r : Fin 32), spriteBit (base 0xD010) 0 1 0 c r = true → (base 0xD010).pixel c r = false := by
  intro c r h; simp [spriteBit] at h; omega
theorem witness_DrawTwiceRestoresDisplay :
    let s := { withMem (base 0xD011) 0xFFF [0x80] with i := 0xFFF }
    s.i.toNat + (1 : Nibble).toNat ≤ 4096 ∧ spriteBit s 0 1 1 0 0 = true ∧ s.pixel 0 0 = false := by decide

/-- A register of 15, the largest key index, and of 16. -/
theorem witness_KeySkips :
    ((withV (base 0xE09E) 0 15).readV 0).toNat = (15 : Key).val ∧ ((withV (base 0xE09E) 0 16).readV 0).toNat > 15 := by decide
theorem witness_KeyWaitIsEntered : (base 0xF30A).halted = false := by decide
theorem witness_RandomIsMasked : (0x0F : Byte).getLsbD 7 = false ∧ (1 : Nibble) ≠ 0xA := by decide

theorem witness_TickCountsDown :
    ({ base 0 with dt := 1, st := 0, schedule := [.tick] } : State).schedule = .tick :: [] ∧
    (let s := { dead with schedule := [.tick] }; s.schedule = .tick :: [] ∧ s.halted = true) := by decide
theorem witness_KeyCommands :
    ({ base 0 with schedule := [.keyDown 15] } : State).schedule = .keyDown 15 :: [] ∧
    ({ base 0 with schedule := [.keyUp 0, .step] } : State).schedule = .keyUp 0 :: [.step] := by decide
theorem witness_PresentClearsChanged : ({ base 0 with schedule := [.present] } : State).schedule = .present :: [] := by decide
theorem witness_ResetGivesResetValues : ({ dead with schedule := [.reset] } : State).schedule = .reset :: [] := by decide

/-- The reset state with commands to come satisfies the invariant. -/
theorem inv_reset_scheduled (cs : List Command) : State.Inv { State.reset with schedule := cs } :=
  ⟨rfl, show (0x200 : Nat) ≤ 0x10FE by decide, fun h => absurd h.1 (show ¬false = true by decide),
    ⟨fun _ => rfl, fun _ => rfl⟩, fun j h => absurd h (Nat.not_lt_zero j.val), fun _ => rfl⟩

/-- The largest program, and the empty one. -/
theorem witness_LoadCopiesProgram :
    (let s := { State.reset with schedule := [.load (List.replicate 3584 0xFF), .step] }
     s.Inv ∧ s.schedule = .load (List.replicate 3584 0xFF) :: [.step] ∧ s.fresh = true ∧
       (List.replicate 3584 (0xFF : Byte)).length ≤ 3584) ∧
    (let s := { State.reset with schedule := [.load []] }
     s.Inv ∧ s.schedule = .load [] :: [] ∧ s.fresh = true ∧ ([] : List Byte).length ≤ 3584) :=
  ⟨⟨inv_reset_scheduled _, rfl, rfl, by rw [List.length_replicate]⟩, inv_reset_scheduled _, rfl, rfl, by decide⟩
theorem witness_EveryStepKeepsInv :
    (let s := { State.reset with schedule := [.tick] }; s.Inv ∧ ∃ t : State, step s = .next t ∧ t.halted = false) ∧
    (State.reset.Inv ∧ ∃ t : State, step State.reset = .next t ∧ t.halted = true) :=
  ⟨⟨inv_reset_scheduled _, _, rfl, rfl⟩, inv_reset_scheduled [], _, rfl, by decide⟩

theorem witness_FontIsFixed : ∃ t : State, step (State.resetWith (Vector.replicate 80 0x55)) = .next t := ⟨_, rfl⟩

theorem witness_RegistersFrame :
    (∃ t : State, exec (.addReg 0xA 0xB) (base 0) = .next t) ∧ writesReg (.addReg 0xA 0xB) 0xB = false ∧
    (∃ t : State, exec (.ldRegs 2) (base 0) = .next t) ∧ writesReg (.ldRegs 2) 3 = false :=
  ⟨⟨_, rfl⟩, by decide, ⟨_, rfl⟩, by decide⟩
/-- The bytes on both sides of a store, and an instruction that stores none. -/
theorem witness_MemoryFrame :
    (let s := { base 0 with i := 0x300 }
     (∃ t : State, exec (.ldB 0xA) s = .next t) ∧
     ¬(s.i.toNat ≤ 0x2FF ∧ 0x2FF < s.i.toNat + storedBytes (.ldB 0xA)) ∧
     ¬(s.i.toNat ≤ 0x303 ∧ 0x303 < s.i.toNat + storedBytes (.ldB 0xA))) ∧
    (∃ t : State, exec (.jp 0) (base 0) = .next t) ∧ storedBytes (.jp 0) = 0 :=
  ⟨⟨⟨_, rfl⟩, by decide, by decide⟩, ⟨_, rfl⟩, by decide⟩
theorem witness_DisplayFrame :
    let s := { base 0 with changed := true }
    (∃ t : State, exec (.jp 0) s = .next t) ∧ Instr.jp 0 ≠ .cls ∧ (∀ x y n, Instr.jp 0 ≠ .drw x y n) ∧
      s.changed = true :=
  ⟨⟨_, rfl⟩, by simp, by simp, rfl⟩
theorem witness_StackFrame :
    (∃ t : State, exec (.jp 0) (base 0) = .next t) ∧ (∀ nnn, Instr.jp 0 ≠ .call nnn) ∧ Instr.jp 0 ≠ .ret ∧
    (∃ t : State, exec (.call 0x300) (base 0) = .next t) ∧
      (∀ nnn, Instr.call 0x300 = .call nnn → (1 : Fin 16).val ≠ (base 0).sp.val) :=
  ⟨⟨_, rfl⟩, by simp, by simp, ⟨_, rfl⟩, fun _ _ => by decide⟩
theorem witness_IndexAndTimerFrame :
    (∃ t : State, exec (.ldVxDt 1) (base 0) = .next t) ∧ (∀ nnn, Instr.ldVxDt 1 ≠ .ldI nnn) ∧
    (∀ x, Instr.ldVxDt 1 ≠ .addI x) ∧ (∀ x, Instr.ldVxDt 1 ≠ .ldF x) ∧ (∀ x, Instr.ldVxDt 1 ≠ .ldDtVx x) ∧
    (∀ x, Instr.ldVxDt 1 ≠ .ldStVx x) :=
  ⟨⟨_, rfl⟩, by simp, by simp, by simp, by simp, by simp⟩
theorem witness_InputAndPortFrame :
    (∃ t : State, exec (.skp 1) (base 0) = .next t) ∧ (∀ x, Instr.skp 1 ≠ .ldVxK x) ∧
    (∀ x nn, Instr.skp 1 ≠ .rnd x nn) :=
  ⟨⟨_, rfl⟩, by simp, by simp⟩
theorem witness_StepWritesNoKeyAndKeepsChanged :
    let s := { base 0x1200 with changed := true }
    s.issuesStep [] ∧ (∃ t : State, step s = .next t) ∧ s.changed = true :=
  ⟨.inl ⟨rfl, rfl⟩, ⟨_, rfl⟩, rfl⟩
theorem witness_StepWritesNoKeyAndKeepsChanged_halted :
    dead.issuesStep [] ∧ (∃ t : State, step dead = .next t) ∧ dead.halted = true :=
  ⟨.inl ⟨by decide, rfl⟩, ⟨_, rfl⟩, by decide⟩
theorem witness_OnlyRandomReadsDraws : ∀ x nn, Instr.drw 0 1 5 ≠ .rnd x nn := by simp
/-- The jump to itself at `0x200` (V-CF-2), and at the last address a fetch can start. -/
theorem witness_EndedIsFixedPoint :
    ((base 0x1200).issuesStep [] ∧ (base 0x1200).ended = true) ∧
    (let s := { withMem (base 0) 0xFFE [0x1F, 0xFE] with pc := 0xFFE }; s.issuesStep [] ∧ s.ended = true) :=
  ⟨⟨.inl ⟨rfl, rfl⟩, by decide⟩, .inl ⟨rfl, rfl⟩, by decide⟩

end Sys2Proof.Tests
end

section
/-! Proofs for 00_scope.md: the parameter `FONT` is fixed (O49), and what `RESET` gives (O45). -/

namespace Sys2Proof.Machine

section NextState

/-! A property of the next state, where there is one: one rule per way an instruction can answer. -/

/-- If the outcome is a next state, that state satisfies `P`. -/
def NextSatisfies (P : State → Prop) (r : Result) : Prop := ∀ t : State, r = .next t → P t

variable {P : State → Prop} {s : State}

theorem nextSatisfies_next {t : State} : NextSatisfies P (.next t) ↔ P t :=
  ⟨fun h => h t rfl, fun h _ ht => by cases ht; exact h⟩

theorem nextSatisfies_refused (r : Refusal) : NextSatisfies P (.refused r) := fun _ h => by cases h

theorem nextSatisfies_complete : NextSatisfies P (complete s) ↔ P (s.setPc (s.pc + 2)) := nextSatisfies_next

theorem nextSatisfies_completeWithFlag {x : Nibble} {b : Byte} {f : Bool} :
    NextSatisfies P (completeWithFlag x b f s) ↔
      P (((s.writeV x b).writeV 0xF (flagByte f)).setPc (s.pc + 2)) := nextSatisfies_next

theorem nextSatisfies_skipIf {c : Bool} :
    NextSatisfies P (skipIf c s) ↔ P (s.setPc (if c = true then s.pc + 4 else s.pc + 2)) := by
  rw [skipIf_eq]; exact nextSatisfies_next

theorem nextSatisfies_raise {e : ErrorCode} {i : Instr} :
    NextSatisfies P (raise e i s) ↔ P (s.fatal e (some (encode i))) := nextSatisfies_next

/-- An outcome that a check chooses satisfies what both of its branches satisfy. -/
theorem nextSatisfies_ite {c : Prop} [Decidable c] {r r' : Result} (h : NextSatisfies P r) (h' : NextSatisfies P r') :
    NextSatisfies P (if c then r else r') := by
  split
  · exact h
  · exact h'

end NextState

/-! `FONT` through every layer of a step. -/

/-- The outcome's next state, if any, has the `FONT` of `s`. -/
abbrev KeepsFont (s : State) (r : Result) : Prop := NextSatisfies (fun t => t.font = s.font) r

@[simp] theorem State.writeFlag_font (s : State) (f : Bool) : (s.writeFlag f).font = s.font := State.writeV_font ..

theorem execRet_keepsFont (s : State) : KeepsFont s (execRet s) := by
  rcases Nat.eq_zero_or_pos s.sp.val with h | h
  · rw [execRet, State.pop_of_zero h]; exact nextSatisfies_raise.mpr rfl
  · rw [execRet, State.pop_of_pos h]; exact nextSatisfies_next.mpr rfl

theorem execCall_keepsFont (nnn : Addr) (s : State) : KeepsFont s (execCall nnn s) := by
  rcases Nat.lt_or_ge s.sp.val 16 with h | h
  · rw [execCall, State.push_of_lt h]; exact nextSatisfies_next.mpr rfl
  · rw [execCall, State.push_of_full (by omega)]; exact nextSatisfies_raise.mpr rfl

/-- The two key skips raise or skip, by what the key operand is (R210, R211). -/
theorem skipOnKey_keepsFont {k : Option Key} {taken : Key → Bool} {e : ErrorCode} {i : Instr} {s : State} :
    KeepsFont s (match k with | none => raise e i s | some k => skipIf (taken k) s) := by
  cases k with
  | none => exact nextSatisfies_raise.mpr rfl
  | some k => exact nextSatisfies_skipIf.mpr rfl

/-- A range-checked instruction keeps `FONT` when the state it commits does (R61). -/
theorem rangeChecked_keepsFont {c : Prop} [Decidable c] {e : ErrorCode} {i : Instr} {s t : State}
    (h : t.font = s.font) : KeepsFont s (if c then complete t else raise e i s) :=
  nextSatisfies_ite (nextSatisfies_complete.mpr h) (nextSatisfies_raise.mpr rfl)

/-- No instruction writes `FONT`, one case per way to answer. -/
theorem exec_keepsFont (i : Instr) (s : State) : KeepsFont s (exec i s) := by
  cases i with
  | cls | ldImm | addImm | ldReg | orReg | andReg | xorReg | ldI | rnd | ldVxDt | ldVxK | ldDtVx | ldStVx
  | addI | ldF => exact nextSatisfies_complete.mpr rfl
  | addReg | subReg | shrReg | subnReg | shlReg => exact nextSatisfies_completeWithFlag.mpr rfl
  | seImm | sneImm | seReg | sneReg => exact nextSatisfies_skipIf.mpr rfl
  | jp | jpV0 => exact nextSatisfies_next.mpr rfl
  | sys => exact nextSatisfies_raise.mpr rfl
  | drw => unfold exec execDrw; exact rangeChecked_keepsFont (by simp)
  | ldB => unfold exec execLdB; exact rangeChecked_keepsFont (State.storeBytes_font ..)
  | stRegs => unfold exec execStRegs; exact rangeChecked_keepsFont (State.storeBytes_font ..)
  | ldRegs => unfold exec execLdRegs; exact rangeChecked_keepsFont (State.setRegs_font ..)
  | ret => exact execRet_keepsFont s
  | call nnn => exact execCall_keepsFont nnn s
  | skp => exact skipOnKey_keepsFont (taken := fun k => s.key[k])
  | sknp => exact skipOnKey_keepsFont (taken := fun k => !s.key[k])

theorem keyScan_font (s : State) : (keyScan s).font = s.font := by
  cases h : lowestKey s with
  | none => rw [keyScan_of_none h]
  | some k => rw [keyScan_of_some h]; rfl

theorem runInstruction_keepsFont (s : State) : KeepsFont s (runInstruction s) := by
  rcases Nat.lt_or_ge s.pc.toNat 0xFFF with hpc | hpc
  · rw [runInstruction_of_fetch (by omega)]
    cases decode (wordAtPc s) with
    | error e => exact nextSatisfies_next.mpr rfl
    | ok i => exact exec_keepsFont i s
  · rw [runInstruction_of_no_fetch hpc]; exact nextSatisfies_next.mpr rfl

theorem stepCommand_keepsFont (s : State) : KeepsFont s (stepCommand s) := by
  cases h : s.mode with
  | running => rw [stepCommand_of_running h]; exact runInstruction_keepsFont s
  | awaitingKey => rw [stepCommand_of_awaitingKey h]; exact nextSatisfies_next.mpr (keyScan_font s)
  | halted => rw [stepCommand_of_halted h]; exact nextSatisfies_next.mpr rfl

theorem tick_font (s : State) : (tick s).font = s.font := by
  unfold tick
  split <;> rfl

theorem load_keepsFont (bytes : List Byte) (s : State) : KeepsFont s (load bytes s) :=
  nextSatisfies_ite (nextSatisfies_refused _)
    (nextSatisfies_ite (nextSatisfies_next.mpr rfl) (nextSatisfies_refused _))

/-- No command writes `FONT`, `RESET` included: it reads it (R42). -/
theorem issue_keepsFont (c : Command) (s : State) : KeepsFont s (issue c s) := by
  cases c with
  | load bytes => exact load_keepsFont bytes s
  | step => exact stepCommand_keepsFont s.issued
  | tick => exact nextSatisfies_next.mpr (tick_font s.issued)
  | reset | keyDown | keyUp | present => exact nextSatisfies_next.mpr rfl

theorem step_keepsFont (s : State) : KeepsFont s (step s) := by
  cases h : s.schedule with
  | nil => rw [step_of_issuesStep (.inl ⟨h, rfl⟩)]; exact stepCommand_keepsFont _
  | cons c rest => rw [step_of_cons h]; exact issue_keepsFont c (s.setPort rest s.fresh)

/-- Settles O49: every command, and so every step, keeps `FONT`. -/
theorem fontIsFixed : Obligations.FontIsFixed := step_keepsFont

/-! The reset state through `readV`, `readMem` and `pixel` and entry by entry (R42). -/

@[simp] theorem State.readV_resetWith (font : Font) (r : Nibble) : (State.resetWith font).readV r = 0 := by
  simp [State.readV]

theorem State.stack_resetWith (font : Font) (j : Fin 16) : (State.resetWith font).stack[j] = 0 := by simp

theorem State.key_resetWith (font : Font) (k : Key) : (State.resetWith font).key[k] = false := by simp

@[simp] theorem State.pixel_resetWith (font : Font) (c : Fin 64) (r : Fin 32) :
    (State.resetWith font).pixel c r = false := by
  simp [State.pixel]

/-- A step that issues `RESET` is `reset` (R280). -/
theorem step_of_reset {s : State} {rest : List Command} (h : s.schedule = .reset :: rest) :
    step s = .next { State.resetWith s.font with draws := s.draws, schedule := rest } := step_of_cons h

/-- Settles O45: the step answers the reset state of the machine's own `FONT`, and the two fields of the model's
own in which it differs from that are read by none of the clauses. -/
theorem resetGivesResetValues : Obligations.ResetGivesResetValues := by
  intro s rest h
  refine ⟨_, step_of_reset h, State.mode_running _ rfl rfl, rfl, State.readV_resetWith s.font, rfl, rfl,
    State.stack_resetWith s.font, rfl, rfl, rfl, fun a ha => ?_, fun a ha => ?_, State.pixel_resetWith s.font, rfl,
    State.key_resetWith s.font, rfl, rfl, rfl, rfl, rfl⟩
  · exact (State.readMem_resetWith s.font a).trans (resetByte_of_lt ha)
  · exact (State.readMem_resetWith s.font a).trans (resetByte_of_ge ha)

end Sys2Proof.Machine
end

section
/-! Proofs for 10_state.md: what an instruction commits and what it leaves alone (O50, O52 to O55, O57, O58), what
a `STEP` can do (O12, O56), the invariant of R43 (O47, O48), `LOAD` (O46) and single instructions (O17, O18, O29,
O41). -/

namespace Sys2Proof

/-! The word of a decoded instruction (R82, R86), by class. -/

theorem encodeAddr_of_class {op : Word} {c : Nibble} (hc : (fieldC op).toNat = c.toNat) :
    encodeAddr c (fieldNNN op) = op := by
  rw [← BitVec.eq_of_toNat_eq hc, encodeAddr_fields]

theorem encodeRegImm_of_class {op : Word} {c : Nibble} (hc : (fieldC op).toNat = c.toNat) :
    encodeRegImm c (fieldX op) (fieldNN op) = op := by
  rw [← BitVec.eq_of_toNat_eq hc, encodeRegImm_fields]

theorem encodeRegImm_of_class_low {op : Word} {c : Nibble} {b : Byte} (hc : (fieldC op).toNat = c.toNat)
    (hb : (fieldNN op).toNat = b.toNat) : encodeRegImm c (fieldX op) b = op := by
  rw [← BitVec.eq_of_toNat_eq hb, encodeRegImm_of_class hc]

theorem encodeRegReg_of_class_low {op : Word} {c n : Nibble} (hc : (fieldC op).toNat = c.toNat)
    (hn : (fieldN op).toNat = n.toNat) : encodeRegReg c (fieldX op) (fieldY op) n = op := by
  rw [← BitVec.eq_of_toNat_eq hc, ← BitVec.eq_of_toNat_eq hn, encodeRegReg_fields]

theorem encode_decodeClass0 {op : Word} (hc : (fieldC op).toNat = 0) : encode (decodeClass0 op) = op := by
  unfold decodeClass0
  split
  · exact Eq.symm ‹_›
  · split
    · exact Eq.symm ‹_›
    · exact encodeAddr_of_class hc

theorem encode_of_decodeClass8 {op : Word} {i : Instr} (hc : (fieldC op).toNat = 8) (h : decodeClass8 op = .ok i) :
    encode i = op := by
  unfold decodeClass8 at h
  split at h <;> cases h <;> exact encodeRegReg_of_class_low hc ‹_›

theorem encode_of_decodeClassE {op : Word} {i : Instr} (hc : (fieldC op).toNat = 14) (h : decodeClassE op = .ok i) :
    encode i = op := by
  unfold decodeClassE at h
  split at h <;> cases h <;> exact encodeRegImm_of_class_low hc ‹_›

theorem encode_of_decodeClassF {op : Word} {i : Instr} (hc : (fieldC op).toNat = 15) (h : decodeClassF op = .ok i) :
    encode i = op := by
  unfold decodeClassF at h
  split at h <;> cases h <;> exact encodeRegImm_of_class_low hc ‹_›

/-- Decoding loses no bit of the word (R81, R86). The cases are the decoder's sixteen classes in its order. -/
theorem encode_of_decode {op : Word} {i : Instr} (h : decode op = .ok i) : encode i = op := by
  unfold decode at h
  split at h
  case h_1 hc => cases h; exact encode_decodeClass0 hc
  case h_9 hc => exact encode_of_decodeClass8 hc h
  case h_15 hc => exact encode_of_decodeClassE hc h
  case h_16 =>
    simp only [imp_false] at *
    have := (fieldC op).isLt
    exact encode_of_decodeClassF (by omega) h
  case h_6 hc | h_10 hc =>
    split at h
    · cases h; exact encodeRegReg_of_class_low hc (congrArg BitVec.toNat ‹_›)
    · cases h
  case h_2 hc | h_3 hc | h_11 hc | h_12 hc => cases h; exact encodeAddr_of_class hc
  case h_14 hc => cases h; exact encodeRegReg_of_class_low hc rfl
  all_goals cases h; exact encodeRegImm_of_class ‹_›

end Sys2Proof

namespace Sys2Proof.Machine

/-! An instruction as its check, its writes and its `PC` (R105, R106). -/

/-- What an instruction that raises no error writes apart from `PC` (R21 to R38, R105). -/
def effect (i : Instr) (s : State) : State :=
  match i with
  | .cls => s.setDisplay (Vector.replicate 32 0) true
  | .ret => s.setStack s.stack ⟨s.sp.val - 1, by omega⟩
  | .call _ => s.setStack (s.stack.setIfInBounds s.sp.val (s.pc + 2)) ⟨min (s.sp.val + 1) 16, by omega⟩
  | .ldImm x nn => s.writeV x nn
  | .addImm x nn => s.writeV x (s.readV x + nn)
  | .ldReg x y => s.writeV x (s.readV y)
  | .orReg x y => s.writeV x (s.readV x ||| s.readV y)
  | .andReg x y => s.writeV x (s.readV x &&& s.readV y)
  | .xorReg x y => s.writeV x (s.readV x ^^^ s.readV y)
  | .addReg x y => (s.writeV x (s.readV x + s.readV y)).writeFlag (carryFlag (s.readV x) (s.readV y))
  | .subReg x y => (s.writeV x (s.readV x - s.readV y)).writeFlag (noBorrowFlag (s.readV x) (s.readV y))
  | .shrReg x _ => (s.writeV x (s.readV x >>> 1)).writeFlag (shiftRightFlag (s.readV x))
  | .subnReg x y => (s.writeV x (s.readV y - s.readV x)).writeFlag (noBorrowFlag (s.readV y) (s.readV x))
  | .shlReg x _ => (s.writeV x (s.readV x <<< 1)).writeFlag (shiftLeftFlag (s.readV x))
  | .ldI nnn => s.setI (addrOperand nnn)
  | .rnd x nn => s.countDraw.writeV x (Config.rand s.draws &&& nn)
  | .drw x y n =>
    (s.setDisplay (xorGrid s.px (spriteGrid s (originX s x) (originY s y) n.toNat)) true).writeFlag
      (collisionFlag s.px (spriteGrid s (originX s x) (originY s y) n.toNat))
  | .ldVxDt x => s.writeV x s.dt
  | .ldVxK x => s.setWait true x
  | .ldDtVx x => s.setDt (s.readV x)
  | .ldStVx x => s.setSt (s.readV x)
  | .addI x => s.setI (s.i + extendByte (s.readV x))
  | .ldF x => s.setI (BitVec.ofNat 16 (5 * (s.readV x).toNat))
  | .ldB x => s.storeBytes s.i.toNat (decimalDigits (s.readV x))
  | .stRegs x => s.storeBytes s.i.toNat (registerBlock s x)
  | .ldRegs x => s.setRegs (loadBlock s x)
  | .sys _ | .jp _ | .jpV0 _ | .seImm _ _ | .sneImm _ _ | .seReg _ _ | .sneReg _ _ | .skp _ | .sknp _ => s

/-- `PC` after a conditional skip (R129). -/
def skipTarget (taken : Bool) (s : State) : Word := if taken = true then s.pc + 4 else s.pc + 2

/-- What an instruction that raises no error puts into `PC` (R105, R120 to R129). -/
def target (i : Instr) (s : State) : Word :=
  match i with
  | .ret => s.stack[s.sp.val - 1]
  | .jp nnn | .call nnn => addrOperand nnn
  | .jpV0 nnn => extendByte (s.readV 0) + addrOperand nnn
  | .seImm x nn => skipTarget (s.readV x == nn) s
  | .sneImm x nn => skipTarget (s.readV x != nn) s
  | .seReg x y => skipTarget (s.readV x == s.readV y) s
  | .sneReg x y => skipTarget (s.readV x != s.readV y) s
  | .skp x => skipTarget ((keyOperand (s.readV x)).any fun k => s.key[k]) s
  | .sknp x => skipTarget ((keyOperand (s.readV x)).any fun k => !s.key[k]) s
  | _ => s.pc + 2

/-- The next state of an instruction that raises no error (R105). -/
def commit (i : Instr) (s : State) : State := (effect i s).setPc (target i s)

/-! Each instruction with a check of its own, where the check passes (R120, R123, R210, R211). -/

theorem exec_skp_of_lt {x : Nibble} {s : State} (h : (s.readV x).toNat < 16) :
    exec (.skp x) s = .next (commit (.skp x) s) := by
  simp only [exec, execSkp, keyOperand_of_lt h, skipIf_eq, commit, effect, target, skipTarget, Option.any_some]

theorem exec_sknp_of_lt {x : Nibble} {s : State} (h : (s.readV x).toNat < 16) :
    exec (.sknp x) s = .next (commit (.sknp x) s) := by
  simp only [exec, execSknp, keyOperand_of_lt h, skipIf_eq, commit, effect, target, skipTarget, Option.any_some]

theorem exec_ret_of_pos {s : State} (h : 0 < s.sp.val) : exec .ret s = .next (commit .ret s) := by
  simp only [exec, execRet, State.pop_of_pos h, commit, effect, target]

theorem exec_call_of_lt {nnn : Addr} {s : State} (h : s.sp.val < 16) :
    exec (.call nnn) s = .next (commit (.call nnn) s) := by
  have hsp : min (s.sp.val + 1) 16 = s.sp.val + 1 := by omega
  have hset : s.stack.setIfInBounds s.sp.val (s.pc + 2) = s.stack.set s.sp.val (s.pc + 2) h := by
    ext j hj; simp only [Vector.getElem_setIfInBounds, Vector.getElem_set]
  simp only [exec, execCall, State.push_of_lt h, commit, effect, target, State.nextPc, hsp, hset]

/-- An instruction whose check passes commits its writes and its `PC` (R105). -/
theorem exec_of_errorOf_none {i : Instr} {s : State} (h : errorOf i s = none) : exec i s = .next (commit i s) := by
  cases i with
  | seImm | sneImm | seReg | sneReg => exact skipIf_eq _ _
  | sys => cases h
  | ret => exact exec_ret_of_pos (by simp [errorOf] at h; omega)
  | call => exact exec_call_of_lt (by simp [errorOf] at h; omega)
  | skp => exact exec_skp_of_lt (by simpa [errorOf] using h)
  | sknp => exact exec_sknp_of_lt (by simpa [errorOf] using h)
  | drw => exact exec_drw_of_le (by simp [errorOf] at h; omega)
  | ldB => exact exec_ldB_of_le (by simp [errorOf] at h; omega)
  | stRegs => exact exec_stRegs_of_le (by simp [errorOf] at h; omega)
  | ldRegs => exact exec_ldRegs_of_le (by simp [errorOf] at h; omega)
  | _ => rfl

/-- An instruction whose check fails takes the fatal error and writes nothing else (R13, R256). -/
theorem exec_of_errorOf_some {i : Instr} {s : State} {e : ErrorCode} (h : errorOf i s = some e) :
    exec i s = .next (s.fatal e (some (encode i))) := by
  cases i with
  | sys => cases h; rfl
  | ret =>
    obtain ⟨hsp, ⟨⟩⟩ := Option.ite_none_right_eq_some.mp h
    simp only [exec, execRet, State.pop_of_zero hsp, raise_eq]
  | call =>
    obtain ⟨hsp, ⟨⟩⟩ := Option.ite_none_right_eq_some.mp h
    simp only [exec, execCall, State.push_of_full hsp, raise_eq]
  | skp =>
    obtain ⟨hk, ⟨⟩⟩ := Option.ite_none_right_eq_some.mp h
    simp only [exec, execSkp, keyOperand_of_ge hk, raise_eq]
  | sknp =>
    obtain ⟨hk, ⟨⟩⟩ := Option.ite_none_right_eq_some.mp h
    simp only [exec, execSknp, keyOperand_of_ge hk, raise_eq]
  | drw | ldB | stRegs | ldRegs =>
    obtain ⟨hr, ⟨⟩⟩ := Option.ite_none_right_eq_some.mp h
    exact if_neg (not_inMemory (by omega) (by omega))
  | _ => cases h

/-- What an instruction can do: take the fatal error, or pass its check and commit. -/
theorem exec_cases {i : Instr} {s t : State} (h : exec i s = .next t) :
    (∃ e op, t = s.fatal e op) ∨ (errorOf i s = none ∧ t = commit i s) := by
  cases he : errorOf i s with
  | none => rw [exec_of_errorOf_none he] at h; cases h; exact .inr ⟨rfl, rfl⟩
  | some e => rw [exec_of_errorOf_some he] at h; cases h; exact .inl ⟨e, _, rfl⟩

/-! The writes of an instruction, element by element: what it leaves alone (R21 to R38). The state is taken apart
first, so that `rfl` compares one field and never two whole states, a sprite's grid in them. -/

theorem effect_readV {i : Instr} {r : Nibble} (h : writesReg i r = false) (s : State) :
    (effect i s).readV r = s.readV r := by
  cases i with
  | ldImm | addImm | ldReg | orReg | andReg | xorReg | rnd | ldVxDt =>
    have hr : r ≠ _ := beq_eq_false_iff_ne.mp h
    simp [effect, hr]
  | addReg | subReg | shrReg | subnReg | shlReg =>
    obtain ⟨hx, hf⟩ := Bool.or_eq_false_iff.mp h
    simp [effect, State.writeFlag, beq_eq_false_iff_ne.mp hx, beq_eq_false_iff_ne.mp hf]
  | drw =>
    have hr : r ≠ _ := beq_eq_false_iff_ne.mp h
    simp [effect, State.writeFlag, hr]
  | ldRegs x =>
    have hr : ¬r.toNat ≤ x.toNat := of_decide_eq_false h
    simp [effect, readV_setRegs_loadBlock, hr]
  | _ => rfl

theorem effect_display {i : Instr} (hc : i ≠ .cls) (hd : ∀ x y n, i ≠ .drw x y n) (s : State) :
    (effect i s).px = s.px ∧ (effect i s).changed = s.changed := by
  cases s
  cases i with
  | cls => exact absurd rfl hc
  | drw x y n => exact absurd rfl (hd x y n)
  | _ => exact ⟨rfl, rfl⟩

theorem effect_changed_of_changed (i : Instr) {s : State} (h : s.changed = true) : (effect i s).changed = true := by
  cases s
  cases i with
  | cls | drw => rfl
  | _ => exact h

theorem effect_sp {i : Instr} (hc : ∀ nnn, i ≠ .call nnn) (hr : i ≠ .ret) (s : State) : (effect i s).sp = s.sp := by
  cases s
  cases i with
  | call nnn => exact absurd rfl (hc nnn)
  | ret => exact absurd rfl hr
  | _ => rfl

theorem effect_stack {i : Instr} (hc : ∀ nnn, i ≠ .call nnn) (s : State) : (effect i s).stack = s.stack := by
  cases s
  cases i with
  | call nnn => exact absurd rfl (hc nnn)
  | _ => rfl

theorem effect_stack_entry {i : Instr} {s : State} {j : Fin 16} (h : ∀ nnn, i = .call nnn → j.val ≠ s.sp.val) :
    (effect i s).stack[j] = s.stack[j] := by
  by_cases hc : ∃ nnn, i = .call nnn
  · obtain ⟨nnn, rfl⟩ := hc
    exact Vector.getElem_setIfInBounds_ne _ (h nnn rfl).symm
  · rw [effect_stack (not_exists.mp hc)]

theorem effect_mem {i : Instr} (hb : ∀ x, i ≠ .ldB x) (hr : ∀ x, i ≠ .stRegs x) (s : State) :
    (effect i s).mem = s.mem := by
  cases s
  cases i with
  | ldB x => exact absurd rfl (hb x)
  | stRegs x => exact absurd rfl (hr x)
  | _ => rfl

theorem effect_i {i : Instr} (hl : ∀ nnn, i ≠ .ldI nnn) (ha : ∀ x, i ≠ .addI x) (hf : ∀ x, i ≠ .ldF x) (s : State) :
    (effect i s).i = s.i := by
  cases s
  cases i with
  | ldI nnn => exact absurd rfl (hl nnn)
  | addI x => exact absurd rfl (ha x)
  | ldF x => exact absurd rfl (hf x)
  | _ => rfl

theorem effect_dt {i : Instr} (h : ∀ x, i ≠ .ldDtVx x) (s : State) : (effect i s).dt = s.dt := by
  cases s
  cases i with
  | ldDtVx x => exact absurd rfl (h x)
  | _ => rfl

theorem effect_st {i : Instr} (h : ∀ x, i ≠ .ldStVx x) (s : State) : (effect i s).st = s.st := by
  cases s
  cases i with
  | ldStVx x => exact absurd rfl (h x)
  | _ => rfl

theorem effect_wait {i : Instr} (h : ∀ x, i ≠ .ldVxK x) (s : State) :
    (effect i s).waitKey = s.waitKey ∧ (effect i s).waitReg = s.waitReg := by
  cases s
  cases i with
  | ldVxK x => exact absurd rfl (h x)
  | _ => exact ⟨rfl, rfl⟩

theorem effect_draws {i : Instr} (h : ∀ x nn, i ≠ .rnd x nn) (s : State) : (effect i s).draws = s.draws := by
  cases s
  cases i with
  | rnd x nn => exact absurd rfl (h x nn)
  | _ => rfl

/-! What no instruction writes. -/

@[simp] theorem effect_key (i : Instr) (s : State) : (effect i s).key = s.key := by cases s; cases i <;> rfl
@[simp] theorem effect_lastKey (i : Instr) (s : State) : (effect i s).lastKey = s.lastKey := by
  cases s; cases i <;> rfl
@[simp] theorem effect_halted (i : Instr) (s : State) : (effect i s).halted = s.halted := by cases s; cases i <;> rfl
@[simp] theorem effect_err (i : Instr) (s : State) : (effect i s).err = s.err := by cases s; cases i <;> rfl
@[simp] theorem effect_font (i : Instr) (s : State) : (effect i s).font = s.font := by cases s; cases i <;> rfl
@[simp] theorem effect_schedule (i : Instr) (s : State) : (effect i s).schedule = s.schedule := by
  cases s; cases i <;> rfl
@[simp] theorem effect_fresh (i : Instr) (s : State) : (effect i s).fresh = s.fresh := by cases s; cases i <;> rfl

/-! The frames over all instructions (R21 to R39). -/

/-- Settles O50: the fatal error writes no register, and a committed instruction those its writes name. -/
theorem registersFrame : Obligations.RegistersFrame := by
  intro i s t r h hr
  rcases exec_cases h with ⟨e, op, rfl⟩ | ⟨-, rfl⟩
  · rfl
  · exact effect_readV hr s

/-- Settles O52, from what the writes of an instruction leave of the display. -/
theorem displayFrame : Obligations.DisplayFrame := by
  intro i s t h
  rcases exec_cases h with ⟨e, op, rfl⟩ | ⟨-, rfl⟩
  · exact ⟨fun _ _ => ⟨fun _ _ => rfl, rfl⟩, id⟩
  · refine ⟨fun hc hd => ?_, effect_changed_of_changed i⟩
    obtain ⟨hpx, hchanged⟩ := effect_display hc hd s
    exact ⟨fun c r => by simp only [commit, State.pixel, State.setPc_px, hpx], hchanged⟩

/-- Settles O53, from what the writes of an instruction leave of the stack. -/
theorem stackFrame : Obligations.StackFrame := by
  intro i s t h
  rcases exec_cases h with ⟨e, op, rfl⟩ | ⟨-, rfl⟩
  · exact ⟨fun _ _ => rfl, fun _ _ => rfl⟩
  · exact ⟨fun hc hr => effect_sp hc hr s, fun _ hj => effect_stack_entry hj⟩

/-- Settles O54, from what the writes of an instruction leave of `I` and the timers. -/
theorem indexAndTimerFrame : Obligations.IndexAndTimerFrame := by
  intro i s t h
  rcases exec_cases h with ⟨e, op, rfl⟩ | ⟨-, rfl⟩
  · exact ⟨fun _ _ _ => rfl, fun _ => rfl, fun _ => rfl⟩
  · exact ⟨fun hl ha hf => effect_i hl ha hf s, fun hd => effect_dt hd s, fun hs => effect_st hs s⟩

/-- Settles O55, from what the writes of an instruction leave of the inputs and the port. -/
theorem inputAndPortFrame : Obligations.InputAndPortFrame := by
  intro i s t h
  rcases exec_cases h with ⟨e, op, rfl⟩ | ⟨-, rfl⟩
  · exact ⟨rfl, rfl, rfl, rfl, fun _ => ⟨rfl, rfl⟩, fun _ => rfl⟩
  · exact ⟨effect_key i s, effect_lastKey i s, effect_schedule i s, effect_fresh i s,
      fun hw => effect_wait hw s, fun hd => effect_draws hd s⟩

/-! What no instruction reads (R35, R108). -/

theorem errorOf_draws (i : Instr) (s : State) (n : Nat) : errorOf i { s with draws := n } = errorOf i s := rfl

theorem commit_draws {i : Instr} (h : ∀ x nn, i ≠ .rnd x nn) (s : State) (n : Nat) :
    commit i { s with draws := n } = { commit i s with draws := n } := by
  cases i with
  | rnd x nn => exact absurd rfl (h x nn)
  | _ => rfl

theorem errorOf_lastKey (i : Instr) (s : State) (k : Option Key) :
    errorOf i { s with lastKey := k } = errorOf i s := rfl

theorem commit_lastKey (i : Instr) (s : State) (k : Option Key) :
    commit i { s with lastKey := k } = { commit i s with lastKey := k } := by
  cases i <;> rfl

/-- An instruction commutes with a change of the state that neither its check nor what it commits depends on, nor
the fatal error. -/
theorem exec_commutes {f : State → State} {i : Instr} {s : State} (he : errorOf i (f s) = errorOf i s)
    (hc : commit i (f s) = f (commit i s)) (hf : ∀ e op, (f s).fatal e op = f (s.fatal e op)) :
    exec i (f s) = mapNext f (exec i s) := by
  cases h : errorOf i s with
  | none => rw [exec_of_errorOf_none h, exec_of_errorOf_none (he.trans h), hc]; rfl
  | some e => rw [exec_of_errorOf_some h, exec_of_errorOf_some (he.trans h), hf]; rfl

/-- Settles O57: neither the check nor the writes of another instruction read the draw counter. -/
theorem onlyRandomReadsDraws : Obligations.OnlyRandomReadsDraws := fun i s n h =>
  exec_commutes (f := fun t => { t with draws := n }) (errorOf_draws i s n) (commit_draws h s n) fun _ _ => rfl

/-- Settles O58: neither the check nor the writes of an instruction read `last_key`. -/
theorem noInstructionReadsLastKey : Obligations.NoInstructionReadsLastKey := fun i s k =>
  exec_commutes (f := fun t => { t with lastKey := k }) (errorOf_lastKey i s k) (commit_lastKey i s k) fun _ _ => rfl

/-! What a `STEP` can do (R100 to R106, R258). -/

/-- In mode Running a `STEP` either takes the error that `stepError` finds, with a word in its record exactly where
there was one to fetch, or finds none and commits the instruction at `PC`. -/
theorem runInstruction_cases (s : State) :
    (∃ e op, stepError s = some (e, op) ∧ runInstruction s = .next (s.fatal e op) ∧
      (op = none ↔ s.pc.toNat ≥ 0xFFF)) ∨
    (∃ i, stepError s = none ∧ runInstruction s = .next (commit i s) ∧ s.pc.toNat ≤ 0xFFE ∧ errorOf i s = none) := by
  rcases Nat.lt_or_ge s.pc.toNat 0xFFF with hpc | hpc
  · rw [stepError, if_neg (by omega), runInstruction_of_fetch (by omega)]
    cases hd : decode (wordAtPc s) with
    | error _ => exact .inl ⟨_, _, rfl, rfl, by simpa using hpc⟩
    | ok i =>
      cases he : errorOf i s with
      | none => exact .inr ⟨i, by simp [he], exec_of_errorOf_none he, by omega, he⟩
      | some e =>
        have hrun := exec_of_errorOf_some he
        rw [encode_of_decode hd] at hrun
        exact .inl ⟨e, some (wordAtPc s), by simp [he], hrun, by simpa using hpc⟩
  · exact .inl ⟨_, none, if_pos hpc, runInstruction_of_no_fetch hpc, by simpa using hpc⟩

/-- In mode Running a `STEP` takes the error that `stepError` names (R256). -/
theorem runInstruction_of_stepError {s : State} {e : ErrorCode} {op : Option Word} (h : stepError s = some (e, op)) :
    runInstruction s = .next (s.fatal e op) ∧ (op = none ↔ s.pc.toNat ≥ 0xFFF) := by
  rcases runInstruction_cases s with ⟨e', op', he, hrun, hop⟩ | ⟨i, he, -⟩
  · cases he.symm.trans h; exact ⟨hrun, hop⟩
  · cases he.symm.trans h

/-- The next states a `STEP` can answer: the state it found, in mode Halted or with no key down; the end of the
key wait; the fatal error; what the instruction at `PC` commits. -/
inductive StepCase (s : State) : State → Prop
  | idle : StepCase s s
  | keyFound (k : Key) : StepCase s ((s.writeV s.waitReg (keyByte k)).setWait false s.waitReg)
  | fatal (hm : s.mode = .running) (e : ErrorCode) (op : Option Word) : StepCase s (s.fatal e op)
  | commit (hm : s.mode = .running) (i : Instr) (hpc : s.pc.toNat ≤ 0xFFE) (he : errorOf i s = none) :
      StepCase s (commit i s)

theorem stepCommand_cases {s t : State} (h : stepCommand s = .next t) : StepCase s t := by
  cases hm : s.mode with
  | halted => rw [stepCommand_of_halted hm] at h; cases h; exact .idle
  | awaitingKey =>
    rw [stepCommand_of_awaitingKey hm] at h
    cases h
    cases hk : lowestKey s with
    | none => rw [keyScan_of_none hk]; exact .idle
    | some k => rw [keyScan_of_some hk]; exact .keyFound k
  | running =>
    rw [stepCommand_of_running hm] at h
    rcases runInstruction_cases s with ⟨e, op, -, hrun, -⟩ | ⟨i, -, hrun, hpc, he⟩
    · cases hrun.symm.trans h; exact .fatal hm e op
    · cases hrun.symm.trans h; exact .commit hm i hpc he

/-- Settles O12: the step takes the error `stepError` names, and the output shows that record. -/
theorem raisedErrorIsReported : Obligations.RaisedErrorIsReported := by
  intro s rest code op hs hm he
  obtain ⟨hrun, hop⟩ := runInstruction_of_stepError (s := s.setPort rest false) he
  have hstep : step s = .next ((s.setPort rest false).fatal code op) :=
    (step_of_issuesStep hs).trans ((stepCommand_of_running (s := s.setPort rest false) hm).trans hrun)
  refine ⟨_, code.number, hstep, rfl, rfl, ?_, hop⟩
  cases code <;> simp [ErrorCode.number]

/-- Settles O56, one case per thing a `STEP` can do. -/
theorem stepWritesNoKeyAndKeepsChanged : Obligations.StepWritesNoKeyAndKeepsChanged := by
  intro s t rest hs h
  rw [step_of_issuesStep hs] at h
  cases stepCommand_cases h with
  | idle => exact ⟨rfl, rfl, id, id, rfl⟩
  | keyFound k => exact ⟨rfl, rfl, id, id, rfl⟩
  | fatal hm e op => exact ⟨rfl, rfl, id, fun _ => rfl, rfl⟩
  | commit hm i hpc he =>
    exact ⟨effect_key i _, effect_lastKey i _, fun hc => effect_changed_of_changed i hc,
      fun hh => (effect_halted i _).trans hh, effect_schedule i _⟩

/-! The invariant of R43 through an instruction. -/

theorem addrOperand_le (a : Addr) : (addrOperand a).toNat ≤ 0xFFF := by
  have := a.isLt
  simp only [addrOperand, BitVec.toNat_setWidth]; omega

theorem skipTarget_le {s : State} (b : Bool) (h : s.pc.toNat ≤ 0xFFE) : (skipTarget b s).toNat ≤ 0x1002 := by
  unfold skipTarget
  split <;> bv_omega

/-- Where an instruction fetched by a `STEP` can go: the farthest is `BNNN` (R25, R124). -/
theorem target_le {i : Instr} {s : State} (hs : s.Inv) (hpc : s.pc.toNat ≤ 0xFFE) (he : errorOf i s = none) :
    (target i s).toNat ≤ 0x10FE := by
  cases i with
  | ret =>
    have hsp : s.sp.val ≠ 0 := by simpa [errorOf] using he
    have hj : s.sp.val - 1 < 16 := by omega
    have hw : (s.stack[s.sp.val - 1]).toNat ≤ 0x1000 := (hs.stack ⟨s.sp.val - 1, hj⟩ (by simp only; omega)).2
    exact hw.trans (by decide)
  | jp nnn | call nnn => exact (addrOperand_le nnn).trans (by decide)
  | jpV0 nnn =>
    have hn := addrOperand_le nnn
    have hv := (s.readV 0).isLt
    simp only [target, extendByte, BitVec.toNat_add, BitVec.toNat_setWidth]; omega
  | seImm | sneImm | seReg | sneReg | skp | sknp => exact (skipTarget_le _ hpc).trans (by decide)
  | _ =>
    have hn : (s.pc + 2).toNat ≤ 0x10FE := by bv_omega
    exact hn

/-- The two stores check their range first, so memory stays canonical (R60, R61). -/
theorem effect_mem_wf {i : Instr} {s : State} (hm : Memory.wf s.font s.mem = true) (he : errorOf i s = none) :
    Memory.wf s.font (effect i s).mem = true := by
  cases i with
  | ldB x =>
    have hr : s.i.toNat + 3 ≤ 4096 := by simp [errorOf] at he; omega
    exact Memory.wf_writeBytes hm hr
  | stRegs x =>
    have hr : s.i.toNat + (x.toNat + 1) ≤ 4096 := by simp [errorOf] at he; omega
    exact Memory.wf_writeBytes hm (by rwa [registerBlock_length])
  | _ => simpa [effect_mem] using hm

/-- A call pushes the address past itself, a return shortens the stack, nothing else touches it (R26, R27). -/
theorem effect_stack_live {i : Instr} {s : State} (hs : s.Inv) (hpc : s.pc.toNat ≤ 0xFFE) (j : Fin 16)
    (hj : j.val < (effect i s).sp.val) :
    2 ≤ ((effect i s).stack[j]).toNat ∧ ((effect i s).stack[j]).toNat ≤ 0x1000 := by
  by_cases hc : ∃ nnn, i = .call nnn
  · obtain ⟨nnn, rfl⟩ := hc
    have hj' : j.val < s.sp.val + 1 := lt_of_lt_of_le hj (Nat.min_le_left ..)
    by_cases hjs : j.val = s.sp.val
    · have hw : (effect (.call nnn) s).stack[j] = s.pc + 2 := by simp [effect, hjs]
      rw [hw]; constructor <;> bv_omega
    · rw [effect_stack_entry fun _ _ => hjs]
      exact hs.stack j (by omega)
  · rw [effect_stack (not_exists.mp hc)]
    by_cases hr : i = .ret
    · subst hr; exact hs.stack j (lt_of_lt_of_le hj (Nat.sub_le ..))
    · rw [effect_sp (not_exists.mp hc) hr] at hj
      exact hs.stack j hj

theorem commit_inv {i : Instr} {s : State} (hs : s.Inv) (hm : s.mode = .running) (hf : s.fresh = false)
    (hpc : s.pc.toNat ≤ 0xFFE) (he : errorOf i s = none) : (commit i s).Inv where
  mem := by simpa [commit] using effect_mem_wf hs.mem he
  pc := target_le hs hpc he
  mode := by simp [commit, (State.mode_eq_running s).mp hm]
  err := by simpa [commit] using hs.err
  stack := effect_stack_live hs hpc
  fresh := by simp [commit, hf]

theorem fatal_inv {s : State} (hs : s.Inv) (hm : s.mode = .running) (hf : s.fresh = false) (e : ErrorCode)
    (op : Option Word) : (s.fatal e op).Inv where
  mem := hs.mem
  pc := hs.pc
  mode := by simp [(State.mode_eq_running s).mp hm]
  err := by simp
  stack := hs.stack
  fresh := by simp [hf]

/-! The invariant through the command port (R230 to R237, R280). -/

/-- The elements R43 speaks of. -/
def State.constrained (s : State) :
    Font × Memory × Word × Fin 17 × Vector Word 16 × Bool × Bool × Option ErrorRecord :=
  (s.font, s.mem, s.pc, s.sp, s.stack, s.halted, s.waitKey, s.err)

/-- Away from `RESET` the invariant looks at no other element. -/
theorem State.Inv.of_constrained {s t : State} (hs : s.Inv) (h : t.constrained = s.constrained)
    (hf : t.fresh = false) : t.Inv := by
  simp only [State.constrained, Prod.mk.injEq] at h
  obtain ⟨hfont, hmem, hpc, hsp, hstack, hhalted, hwait, herr⟩ := h
  constructor
  · rw [hfont, hmem]; exact hs.mem
  · rw [hpc]; exact hs.pc
  · rw [hhalted, hwait]; exact hs.mode
  · rw [herr, hhalted]; exact hs.err
  · rw [hsp, hstack]; exact hs.stack
  · simp [hf]

theorem State.Inv.issued {s : State} (hs : s.Inv) : s.issued.Inv := hs.of_constrained rfl rfl

/-- What a `STEP` can do keeps the invariant. -/
theorem StepCase.inv {s t : State} (h : StepCase s t) (hs : s.Inv) (hf : s.fresh = false) : t.Inv := by
  cases h with
  | idle => exact hs
  | keyFound k => exact ⟨hs.mem, hs.pc, by simp, hs.err, hs.stack, by simp [hf]⟩
  | fatal hm e op => exact fatal_inv hs hm hf e op
  | commit hm i hpc he => exact commit_inv hs hm hf hpc he

/-- The reset state of every `FONT`, at any count of draws and with any commands to come. -/
theorem State.inv_resetWith (font : Font) (draws : Nat) (schedule : List Command) :
    State.Inv { State.resetWith font with draws := draws, schedule := schedule } where
  mem := rfl
  pc := by show (0x200#16 : Word).toNat ≤ 0x10FE; decide
  mode := by simp
  err := by simp
  stack j hj := absurd hj (Nat.not_lt_zero _)
  fresh _ := rfl

theorem tick_constrained (s : State) : (tick s).constrained = s.constrained := by
  unfold tick
  split <;> rfl

theorem tick_fresh (s : State) : (tick s).fresh = s.fresh := by
  unfold tick
  split <;> rfl

theorem load_of_fresh {s : State} {bytes : List Byte} (hf : s.fresh = true) (hl : bytes.length ≤ 3584) :
    load bytes s = .next (s.storeBytes 0x200 bytes).issued := by
  simp [load, hf, hl]

/-- A program of at most 3584 bytes ends below 4096 (R232). -/
theorem load_keepsInv (bytes : List Byte) {s : State} (hs : s.Inv) : NextSatisfies State.Inv (load bytes s) := by
  refine nextSatisfies_ite (nextSatisfies_refused _) ?_
  split
  · refine nextSatisfies_next.mpr ⟨Memory.wf_writeBytes hs.mem ?_, hs.pc, hs.mode, hs.err, hs.stack, nofun⟩
    have hl : bytes.length ≤ 3584 := ‹_›
    show 0x200 + bytes.length ≤ 4096
    omega
  · exact nextSatisfies_refused _

theorem issue_keepsInv (c : Command) {s : State} (hs : s.Inv) : NextSatisfies State.Inv (issue c s) := by
  cases c with
  | reset => exact nextSatisfies_next.mpr (State.inv_resetWith s.font s.draws s.schedule)
  | load bytes => exact load_keepsInv bytes hs
  | step => exact fun t h => (stepCommand_cases h).inv hs.issued rfl
  | tick => exact nextSatisfies_next.mpr (hs.issued.of_constrained (tick_constrained _) (tick_fresh _))
  | keyDown | keyUp | present => exact nextSatisfies_next.mpr (hs.issued.of_constrained rfl rfl)

/-- Taking a command off the schedule keeps the invariant: what `fresh` says leaves the schedule open. -/
theorem State.Inv.setPort {s : State} (hs : s.Inv) (rest : List Command) : (s.setPort rest s.fresh).Inv where
  mem := hs.mem
  pc := hs.pc
  mode := hs.mode
  err := hs.err
  stack := hs.stack
  fresh hf := by
    have hs' := congrArg (State.setPort · rest true) (hs.fresh hf)
    rwa [show s.fresh = true from hf]

theorem step_keepsInv {s : State} (hs : s.Inv) : NextSatisfies State.Inv (step s) := by
  cases h : s.schedule with
  | nil =>
    rw [step_of_issuesStep (.inl ⟨h, rfl⟩)]
    exact fun t ht => (stepCommand_cases ht).inv (hs.of_constrained rfl rfl) rfl
  | cons c rest => rw [step_of_cons h]; exact issue_keepsInv c (hs.setPort rest)

/-- Settles O48: every command keeps the invariant, and so does every step. -/
theorem everyStepKeepsInv : Obligations.EveryStepKeepsInv := fun _ t hs h => step_keepsInv hs t h

/-- Settles O47: with no draw made and no command to come. -/
theorem resetStateSatisfiesInv : Obligations.ResetStateSatisfiesInv :=
  ⟨State.inv_resetWith defaultFont 0 [], fun font => State.inv_resetWith font 0 []⟩

/-- Directly after `RESET` memory is its reset content (R42). -/
theorem State.Inv.readMem_of_fresh {s : State} (hs : s.Inv) (hf : s.fresh = true) (a : Nat) :
    s.readMem a = resetByte s.font a := by
  have hmem : s.mem = [] := congrArg State.mem (hs.fresh hf)
  rw [State.readMem, hmem, Memory.read]

/-- Settles O46: the store's own laws, and past the program the reset content that `fresh` stands for. -/
theorem loadCopiesProgram : Obligations.LoadCopiesProgram := by
  intro s bytes rest hs hsched hf hl
  have hstep : step s = .next ((s.setPort rest s.fresh).storeBytes 0x200 bytes).issued :=
    (step_of_cons hsched).trans (load_of_fresh hf hl)
  refine ⟨_, hstep, fun j hj => ?_, fun a ha => ?_, fun a ha => ?_, rfl⟩
  · exact State.readMem_storeBytes_inside (s := s) hs.mem (by omega) hj
  · exact State.readMem_storeBytes_outside s 0x200 bytes (by omega)
  · calc (s.storeBytes 0x200 bytes).readMem a
        = s.readMem a := State.readMem_storeBytes_outside s 0x200 bytes (by omega)
      _ = resetByte s.font a := hs.readMem_of_fresh hf a
      _ = 0 := resetByte_of_ge (by omega)

/-! Single instructions. -/

/-- Settles O17: `00EE` commits what it popped, or its check finds the stack empty. -/
theorem returnPopsStack : Obligations.ReturnPopsStack := by
  refine fun s => ⟨fun h => ⟨_, exec_ret_of_pos h, ?_, fun j hj => ?_, rfl⟩, fun h => ?_⟩
  · show s.sp.val - 1 + 1 = s.sp.val
    omega
  · show s.stack[s.sp.val - 1] = s.stack[j.val]
    simp only [← hj, Nat.add_sub_cancel]
  · exact exec_of_errorOf_some (if_pos h)

/-- Settles O18: `2NNN` commits what it pushed, or its check finds the stack full. -/
theorem callPushesReturnAddress : Obligations.CallPushesReturnAddress := by
  refine fun nnn s => ⟨fun h => ⟨_, exec_call_of_lt h, ?_, ?_, fun j => ?_, rfl⟩, fun h => ?_⟩
  · show min (s.sp.val + 1) 16 = s.sp.val + 1
    omega
  · exact BitVec.toNat_setWidth_of_le (by decide)
  · simp [commit, effect, Vector.getElem_setIfInBounds, eq_comm]
  · exact exec_of_errorOf_some (if_pos h)

/-- Settles O41: the drawn byte is masked in the register and every other register is framed. -/
theorem randomIsMasked : Obligations.RandomIsMasked := by
  intro x nn s
  have hx : (commit (.rnd x nn) s).readV x = Config.rand s.draws &&& nn := by simp [commit, effect]
  refine ⟨_, exec_of_errorOf_none rfl, hx, fun b hb => ?_, fun r hr => ?_, rfl⟩
  · rw [hx, BitVec.getLsbD_and, hb, Bool.and_false]
  · exact effect_readV (i := .rnd x nn) (beq_eq_false_iff_ne.mpr hr) s

/-- Settles O29: for a digit 5 times the register is below 80, where memory holds `FONT`. -/
theorem indexPointsAtGlyph : Obligations.IndexPointsAtGlyph := by
  intro x s hd hfont
  have hi : (commit (.ldF x) s).i.toNat = 5 * (s.readV x).toNat :=
    (BitVec.toNat_ofNat ..).trans (Nat.mod_eq_of_lt (by omega))
  refine ⟨_, exec_of_errorOf_none rfl, fun j hj => ?_⟩
  rw [hi]
  exact hfont _ _

end Sys2Proof.Machine
end

section
/-! Proofs for 20_memory.md: what an instruction leaves of memory (O51), the fetch (O8), and the fetch of a word
just stored (O34). -/

namespace Sys2Proof.Machine

/-- The writes of an instruction reach no byte but the `storedBytes` from `I` upward (R60, R65). -/
theorem effect_readMem {i : Instr} {s : State} {a : Nat}
    (h : ¬(s.i.toNat ≤ a ∧ a < s.i.toNat + storedBytes i)) : (effect i s).readMem a = s.readMem a := by
  cases i with
  | ldB x => exact State.readMem_storeBytes_outside s s.i.toNat (decimalDigits (s.readV x)) h
  | stRegs x =>
    refine State.readMem_storeBytes_outside s s.i.toNat (registerBlock s x) ?_
    rwa [registerBlock_length]
  | _ => exact State.readMem_congr (effect_font _ s) (effect_mem (by simp) (by simp) s) a

/-- Settles O51: the fatal error writes no memory, and a committed instruction what its writes reach. -/
theorem memoryFrame : Obligations.MemoryFrame := by
  intro i s t a h ha
  rcases exec_cases h with ⟨e, op, rfl⟩ | ⟨-, rfl⟩
  · rfl
  · exact effect_readMem ha

/-- A `STEP` in mode Running runs one instruction on the state in which the port has taken the command (R100). -/
theorem step_of_running {s : State} {rest : List Command} (hs : s.issuesStep rest) (hm : s.mode = .running) :
    step s = runInstruction (s.setPort rest false) :=
  (step_of_issuesStep hs).trans (stepCommand_of_running ((mode_port s rest false).trans hm))

/-- Settles O8: below `0xFFF` the word is the one at `PC`, and from there on the fetch fails. -/
theorem fetchIsBigEndianAndBounded : Obligations.FetchIsBigEndianAndBounded := by
  intro s rest hs hm
  refine ⟨fun hpc => ⟨wordAtPc (s.setPort rest false), wordOfBytes_toNat _ _, ?_⟩, fun hpc => ?_⟩
  · have hfetch : (s.setPort rest false).pc.toNat ≤ 0xFFE := Nat.le_of_lt_succ hpc
    rw [step_of_running hs hm, runInstruction_of_fetch hfetch]
    cases decode (wordAtPc (s.setPort rest false)) <;> rfl
  · rw [step_of_running hs hm]
    exact runInstruction_of_no_fetch hpc

/-- The word a jump to `p` would fetch next (R63). -/
theorem wordAtPc_setPc (s : State) (p : Word) :
    wordAtPc (s.setPc p) = wordOfBytes (s.readMem p.toNat) (s.readMem (p.toNat + 1)) := rfl

/-- Settles O34: `PC` moves to `I`, where the first two bytes of the stored block are `V0` and `V1`. -/
theorem storedWordIsFetchedNext : Obligations.StoredWordIsFetchedNext := by
  intro x s hmem hx hi hr
  have h0 := read_registerBlock (j := 0) hmem hr (Nat.zero_le _)
  have h1 := read_registerBlock (j := 1) hmem hr hx
  refine ⟨_, exec_stRegs_of_le hr, ?_⟩
  rw [wordAtPc_setPc, ← hi]
  exact congrArg₂ wordOfBytes h0 h1

end Sys2Proof.Machine
end

section
/-! Proofs for 30_encoding.md: the encoder and the decoder undo each other (O1, O2, O6), the words that are no
instruction (O5), the decoder and the opcode map (O3, O4), and the shifts, whose `Y` the word holds and the
instruction ignores (O27). -/

namespace Sys2Proof

/-! The word of an instruction decodes to it (R84, R85). -/

theorem Instr.wf_sys {nnn : Addr} : (Instr.sys nnn).wf = true ↔ nnn ≠ 0x0E0#12 ∧ nnn ≠ 0x0EE#12 := by
  simp [Instr.wf]

theorem decodeClass0_of_ne {op : Word} (hcls : op ≠ 0x00E0#16) (hret : op ≠ 0x00EE#16) :
    decodeClass0 op = .sys (fieldNNN op) := by
  rw [decodeClass0, if_neg hcls, if_neg hret]

/-- A word of class 0 is one of the two exact words only when its address is that word's (R85). -/
theorem decodeClass0_encodeAddr {nnn : Addr} (h : (Instr.sys nnn).wf = true) :
    decodeClass0 (encodeAddr 0x0 nnn) = .sys nnn := by
  obtain ⟨hcls, hret⟩ := Instr.wf_sys.mp h
  have hnnn : fieldNNN (encodeAddr 0x0 nnn) = nnn := fieldNNN_encodeAddr 0x0 nnn
  rw [decodeClass0_of_ne, hnnn]
  · exact fun he => hcls (hnnn.symm.trans (congrArg fieldNNN he))
  · exact fun he => hret (hnnn.symm.trans (congrArg fieldNNN he))

/-- Settles O1: the fields of each format come back as they were encoded, and the class or, within a class, the low
nibble or byte picks the instruction. Class 0 alone needs well-formedness. -/
theorem decodeOfEncode : Obligations.DecodeOfEncode := by
  intro i hi
  cases i with
  | cls | ret => decide
  | sys nnn => simpa [decode, encode] using decodeClass0_encodeAddr hi
  | ldReg | orReg | andReg | xorReg | addReg | subReg | shrReg | subnReg | shlReg =>
    simp [encode, decode, decodeClass8]
  | skp | sknp => simp [encode, decode, decodeClassE]
  | ldVxDt | ldVxK | ldDtVx | ldStVx | addI | ldF | ldB | stRegs | ldRegs => simp [encode, decode, decodeClassF]
  | _ => simp [encode, decode]

/-- Settles O2: the word is the instruction's, so a `0NNN` with the address of one of the two exact words would have
decoded to `CLS` or `RET`. -/
theorem encodeOfDecode : Obligations.EncodeOfDecode := by
  intro op i h
  obtain rfl : encode i = op := encode_of_decode h
  refine ⟨rfl, ?_⟩
  cases i with
  | sys nnn =>
    refine Instr.wf_sys.mpr ⟨?_, ?_⟩
    · rintro rfl; exact absurd h (by decide)
    · rintro rfl; exact absurd h (by decide)
  | _ => rfl

/-- Settles O6, by running the decoder on the fifteen words. -/
theorem specWordsDecode : Obligations.SpecWordsDecode := by
  unfold Obligations.SpecWordsDecode
  decide

/-! The words that are no instruction, by class (R88). -/

theorem decodeClass8_refuses {op : Word} :
    decodeClass8 op = .error .unrecognizedOpcode ↔ op.toNat % 16 ∈ [8, 9, 0xA, 0xB, 0xC, 0xD, 0xF] := by
  unfold decodeClass8
  rw [fieldN_toNat]
  split
  case h_10 =>
    simp only [imp_false] at *
    simp only [List.mem_cons, List.not_mem_nil, or_false, true_iff]
    omega
  all_goals simp [*]

theorem decodeClassE_refuses {op : Word} :
    decodeClassE op = .error .unrecognizedOpcode ↔ op.toNat % 256 ∉ [0x9E, 0xA1] := by
  unfold decodeClassE
  rw [fieldNN_toNat]
  split <;> simp_all

theorem decodeClassF_refuses {op : Word} :
    decodeClassF op = .error .unrecognizedOpcode ↔
      op.toNat % 256 ∉ [0x07, 0x0A, 0x15, 0x18, 0x1E, 0x29, 0x33, 0x55, 0x65] := by
  unfold decodeClassF
  rw [fieldNN_toNat]
  split <;> simp_all

theorem fieldN_eq_zero {op : Word} : fieldN op = 0 ↔ op.toNat % 16 = 0 := by
  rw [← BitVec.toNat_inj, fieldN_toNat]; rfl

/-- Settles O5. The cases are the decoder's sixteen classes in its order: five of them can refuse a word. -/
theorem unrecognizedWords : Obligations.UnrecognizedWords := by
  intro op
  have hlt := op.isLt
  unfold decode
  rw [fieldC_toNat]
  split
  case h_6 hc | h_10 hc => simp [hc, ← fieldN_eq_zero]
  case h_9 hc => simp [hc, decodeClass8_refuses]
  case h_15 hc => simp [hc, decodeClassE_refuses]
  case h_16 =>
    have hc : op.toNat / 4096 = 15 := by simp only [imp_false] at *; omega
    simp [hc, decodeClassF_refuses]
  all_goals simp [*]

/-- Whether a word is refused depends on its class and, in the classes that can refuse one, on the low nibble or
byte that the decoder reads there (R84). -/
theorem decode_refuses_congr {op w : Word} (hc : fieldC op = fieldC w)
    (hn : (fieldC w).toNat ∈ [5, 8, 9] → fieldN op = fieldN w)
    (hb : (fieldC w).toNat ∈ [14, 15] → fieldNN op = fieldNN w)
    (h : decode op = .error .unrecognizedOpcode) : decode w = .error .unrecognizedOpcode := by
  rw [unrecognizedWords] at h ⊢
  simp only [← fieldC_toNat, ← fieldN_toNat, ← fieldNN_toNat, hc] at h ⊢
  rcases h with ⟨hcl, h⟩ | ⟨hcl, h⟩ | ⟨hcl, h⟩ | ⟨hcl, h⟩ | ⟨hcl, h⟩
  · rw [hn (by simp [hcl])] at h; exact .inl ⟨hcl, h⟩
  · rw [hn (by simp [hcl])] at h; exact .inr (.inl ⟨hcl, h⟩)
  · rw [hn (by simp [hcl])] at h; exact .inr (.inr (.inl ⟨hcl, h⟩))
  · rw [hb (by simp [hcl])] at h; exact .inr (.inr (.inr (.inl ⟨hcl, h⟩)))
  · rw [hb (by simp [hcl])] at h; exact .inr (.inr (.inr (.inr ⟨hcl, h⟩)))

/-- A word is refused for one reason only: `tooFewBytes` is of byte sequences (R80, R88). The second split is the
one that the decoder makes within a class that can refuse a word. -/
theorem decode_error {op : Word} {e : DecodeError} (h : decode op = .error e) : e = .unrecognizedOpcode := by
  unfold decode decodeClass8 decodeClassE decodeClassF at h
  split at h
  case h_6 | h_9 | h_10 | h_15 | h_16 =>
    split at h <;> cases h
    rfl
  all_goals cases h

end Sys2Proof

namespace Sys2Proof.Laws.OpcodeMapRow

/-- Every instruction's word belongs to the instruction's row (R86). -/
theorem every_instr : (i : Instr) → Statement i
  | .cls => cls | .ret => ret | .sys nnn => sys nnn | .jp nnn => jp nnn | .call nnn => call nnn
  | .seImm x nn => seImm x nn | .sneImm x nn => sneImm x nn | .seReg x y => seReg x y
  | .ldImm x nn => ldImm x nn | .addImm x nn => addImm x nn | .ldReg x y => ldReg x y
  | .orReg x y => orReg x y | .andReg x y => andReg x y | .xorReg x y => xorReg x y
  | .addReg x y => addReg x y | .subReg x y => subReg x y | .shrReg x y => shrReg x y
  | .subnReg x y => subnReg x y | .shlReg x y => shlReg x y | .sneReg x y => sneReg x y | .ldI nnn => ldI nnn
  | .jpV0 nnn => jpV0 nnn | .rnd x nn => rnd x nn | .drw x y n => drw x y n | .skp x => skp x
  | .sknp x => sknp x | .ldVxDt x => ldVxDt x | .ldVxK x => ldVxK x | .ldDtVx x => ldDtVx x
  | .ldStVx x => ldStVx x | .addI x => addI x | .ldF x => ldF x | .ldB x => ldB x | .stRegs x => stRegs x
  | .ldRegs x => ldRegs x

end Sys2Proof.Laws.OpcodeMapRow

namespace Sys2Proof

/-! The rows of the opcode map (R86). -/

theorem OpcodeRow.selects_iff {r : OpcodeRow} {op : Word} : r.selects op = true ↔ op &&& r.mask = r.value := by
  simp [OpcodeRow.selects]

/-- Where a row's mask is all ones, a word it selects has the bits of the row's value. -/
theorem OpcodeRow.field_of_selects {r : OpcodeRow} {op : Word} (h : r.selects op = true) {start len : Nat}
    (hm : r.mask.extractLsb' start len = BitVec.allOnes len) :
    op.extractLsb' start len = r.value.extractLsb' start len := by
  rw [← OpcodeRow.selects_iff.mp h, BitVec.extractLsb'_and, hm, BitVec.and_allOnes]

/-- The values of two rows that select one word agree where both masks look. -/
theorem OpcodeRow.values_agree_of_selects {r q : OpcodeRow} {op : Word} (hr : r.selects op = true)
    (hq : q.selects op = true) : r.value &&& q.mask = q.value &&& r.mask := by
  rw [← OpcodeRow.selects_iff.mp hr, ← OpcodeRow.selects_iff.mp hq, BitVec.and_assoc, BitVec.and_assoc,
    BitVec.and_comm r.mask]

/-- Every row fixes the fields that the decoder reads in the row's class, and its own value is no refused word. -/
theorem opcodeMap_fixes_fields : ∀ r ∈ opcodeMap, fieldC r.mask = BitVec.allOnes 4 ∧
    ((fieldC r.value).toNat ∈ [5, 8, 9] → fieldN r.mask = BitVec.allOnes 4) ∧
    ((fieldC r.value).toNat ∈ [14, 15] → fieldNN r.mask = BitVec.allOnes 8) ∧
    decode r.value ≠ .error .unrecognizedOpcode := by
  decide

theorem decode_ne_error_of_selects {r : OpcodeRow} (hr : r ∈ opcodeMap) {op : Word} (h : r.selects op = true) :
    decode op ≠ .error .unrecognizedOpcode := by
  obtain ⟨hc, hn, hb, hval⟩ := opcodeMap_fixes_fields r hr
  exact fun he => hval (decode_refuses_congr (OpcodeRow.field_of_selects h hc)
    (fun hcl => OpcodeRow.field_of_selects h (hn hcl)) (fun hcl => OpcodeRow.field_of_selects h (hb hcl)) he)

/-- Settles O3: a decoded word is its instruction's word, which the instruction's row selects, and a word that a row
selects is refused no more than that row's value. -/
theorem decoderFollowsOpcodeMap : Obligations.DecoderFollowsOpcodeMap := by
  intro op
  have hrow : ∀ i, decode op = .ok i → ∃ r ∈ opcodeMap, r.num = i.rowNum ∧ r.selects op = true := fun i h =>
    encode_of_decode h ▸ Laws.OpcodeMapRow.every_instr i
  refine ⟨hrow, fun h r hr => ?_, fun h => ?_⟩
  · exact Bool.eq_false_iff.mpr fun hsel => decode_ne_error_of_selects hr hsel h
  · cases hd : decode op with
    | error e => rw [decode_error hd]
    | ok i =>
      obtain ⟨r, hr, -, hsel⟩ := hrow i hd
      exact absurd hsel (Bool.eq_false_iff.mp (h r hr))

/-- The only rows whose values agree where both masks look are the two exact words with the rest of class 0 (R85). -/
theorem opcodeMap_agreeing_rows : ∀ r ∈ opcodeMap, ∀ q ∈ opcodeMap, r.num < q.num →
    r.value &&& q.mask = q.value &&& r.mask →
    (r = ⟨1, 0xFFFF, 0x00E0⟩ ∨ r = ⟨2, 0xFFFF, 0x00EE⟩) ∧ q.num = 3 := by
  decide

/-- Settles O4: rows that select one word agree where both masks look, and rows 1 and 2 select their value alone. -/
theorem opcodeRowsOverlapOnlyInClassZero : Obligations.OpcodeRowsOverlapOnlyInClassZero := by
  refine ⟨by decide, by decide, fun op r q hr hq hlt hsr hsq => ?_⟩
  have hop : ∀ v : Word, op &&& 0xFFFF#16 = v → op = v := fun v h => BitVec.and_allOnes.symm.trans h
  obtain ⟨rfl | rfl, h3⟩ := opcodeMap_agreeing_rows r hr q hq hlt (OpcodeRow.values_agree_of_selects hsr hsq)
  · exact .inl ⟨hop _ (OpcodeRow.selects_iff.mp hsr), rfl, h3⟩
  · exact .inr ⟨hop _ (OpcodeRow.selects_iff.mp hsr), rfl, h3⟩

end Sys2Proof

namespace Sys2Proof.Machine

/-! The shifts (R149, R151). -/

/-- An instruction that answers a result and a flag writes the two, the flag last, and moves on (R140). -/
theorem completesWithRegs_of_completeWithFlag {i : Instr} {x : Nibble} {b : Byte} {f : Bool} {s : State}
    (h : exec i s = completeWithFlag x b f s) :
    CompletesWithRegs i s fun r => if r = 0xF then flagByte f else if r = x then b else s.readV r :=
  ⟨_, h.trans (completeWithFlag_eq x b f s), fun r => by simp, rfl⟩

theorem ushiftRight_one_eq_ofNat (a : Byte) : a >>> 1 = BitVec.ofNat 8 (a.toNat / 2) := by
  apply BitVec.eq_of_toNat_eq
  have := a.isLt
  simp; omega

theorem shiftLeft_one_eq_ofNat (a : Byte) : a <<< 1 = BitVec.ofNat 8 (a.toNat * 2 % 256) := by
  apply BitVec.eq_of_toNat_eq
  simp [Nat.shiftLeft_eq]

/-- A bit of a byte as the value `VF` holds (R22). -/
theorem flagByte_getLsbD (a : Byte) (k : Nat) : flagByte (a.getLsbD k) = BitVec.ofNat 8 (a.toNat / 2 ^ k % 2) := by
  rw [BitVec.getLsbD, Nat.testBit_eq_decide_div_mod_eq]
  rcases Nat.mod_two_eq_zero_or_one (a.toNat / 2 ^ k) with h | h <;> rw [h] <;> rfl

theorem flagByte_shiftRightFlag (a : Byte) : flagByte (shiftRightFlag a) = BitVec.ofNat 8 (a.toNat % 2) := by
  rw [shiftRightFlag, flagByte_getLsbD, Nat.pow_zero, Nat.div_one]

theorem flagByte_shiftLeftFlag (a : Byte) : flagByte (shiftLeftFlag a) = BitVec.ofNat 8 (a.toNat / 128) := by
  have hbit : a.toNat / 2 ^ 7 % 2 = a.toNat / 128 := by have := a.isLt; omega
  rw [shiftLeftFlag, flagByte_getLsbD, hbit]

/-- Settles O27: both shifts answer a result and a flag that `VX` alone determines. -/
theorem shiftsMoveOutBitToFlag : Obligations.ShiftsMoveOutBitToFlag := by
  intro x y s
  have hshr : exec (.shrReg x y) s =
      completeWithFlag x (s.readV x >>> 1) (shiftRightFlag (s.readV x)) s := rfl
  have hshl : exec (.shlReg x y) s =
      completeWithFlag x (s.readV x <<< 1) (shiftLeftFlag (s.readV x)) s := rfl
  simp only [← ushiftRight_one_eq_ofNat, ← flagByte_shiftRightFlag, ← shiftLeft_one_eq_ofNat,
    ← flagByte_shiftLeftFlag]
  exact ⟨completesWithRegs_of_completeWithFlag hshr, completesWithRegs_of_completeWithFlag hshl⟩

end Sys2Proof.Machine
end

section
/-! Proofs for 40_step_cycle.md: a `STEP` by mode (O7, O9, O10, O11), that every instruction has a next state (O13),
and what a halted machine keeps under every command but `RESET` (O15). -/

namespace Sys2Proof.Machine

/-! A `STEP`, by mode (R101 to R106). -/

/-- Settles O7: the fetch succeeds, and the word it reads decodes to the instruction. -/
theorem stepRunsDecodedInstruction : Obligations.StepRunsDecodedInstruction := by
  intro s rest i hs hm hpc hd
  have hfetch := runInstruction_of_fetch (s := s.setPort rest false) hpc
  have hdecode : decode (wordAtPc (s.setPort rest false)) = .ok i := hd
  rw [hdecode] at hfetch
  exact (step_of_running hs hm).trans hfetch

/-- A `STEP` in mode Halted moves the command port alone (R101). -/
theorem step_of_halted {s : State} {rest : List Command} (hs : s.issuesStep rest) (hm : s.mode = .halted) :
    step s = .next (s.setPort rest false) :=
  (step_of_issuesStep hs).trans (stepCommand_of_halted ((mode_port s rest false).trans hm))

/-- Settles O9: the two fields of the command port are all that such a step writes. -/
theorem haltedStepChangesNothing : Obligations.HaltedStepChangesNothing := fun _ _ => step_of_halted

/-- A `STEP` in mode AwaitingKey is the key scan (R102). -/
theorem step_of_awaitingKey {s : State} {rest : List Command} (hs : s.issuesStep rest) (hm : s.mode = .awaitingKey) :
    step s = .next (keyScan (s.setPort rest false)) :=
  (step_of_issuesStep hs).trans (stepCommand_of_awaitingKey ((mode_port s rest false).trans hm))

/-- Settles O10: the premises on the keys say which key, if any, the scan finds. -/
theorem keyScanTakesLowestKey : Obligations.KeyScanTakesLowestKey := by
  intro s rest hs hm
  rw [step_of_awaitingKey hs hm]
  refine ⟨fun k hk hlow => ?_, fun hnone => ?_⟩
  · have hscan : lowestKey (s.setPort rest false) = some k := lowestKey_eq_some.mpr ⟨hk, hlow⟩
    rw [keyScan_of_some hscan]
    exact ⟨_, rfl, fun r => State.readV_writeV _ s.waitReg r (keyByte k), rfl⟩
  · have hscan : lowestKey (s.setPort rest false) = none := lowestKey_eq_none.mpr hnone
    rw [keyScan_of_none hscan]
    rfl

/-- Settles O11: a `STEP` takes the error `stepError` finds, or commits an instruction, which writes neither `halted`
nor `err`. -/
theorem fatalErrorEntryIsPrecise : Obligations.FatalErrorEntryIsPrecise := by
  intro s rest hs hm
  rw [step_of_running hs hm]
  refine ⟨fun code op he => ?_, fun he => ?_⟩
  · exact (runInstruction_of_stepError (s := s.setPort rest false) he).1
  · obtain ⟨e, op, he', -⟩ | ⟨i, -, hrun, -⟩ := runInstruction_cases (s.setPort rest false)
    · cases he.symm.trans he'
    · obtain ⟨hhalted, -⟩ := (State.mode_eq_running s).mp hm
      exact ⟨_, hrun, (effect_halted i _).trans hhalted, effect_err i _⟩

/-! Every instruction, in every state (R106, R256). -/

/-- Settles O13: an instruction's check raises the fatal error, which is a next state, or passes. -/
theorem everyInstructionHasNextState : Obligations.EveryInstructionHasNextState := by
  intro i s
  cases he : errorOf i s with
  | none => exact ⟨_, exec_of_errorOf_none he⟩
  | some e => exact ⟨_, exec_of_errorOf_some he⟩

/-! A halted machine under the commands of the port (R234 to R237, R260). -/

theorem tick_of_halted {s : State} (hh : s.halted = true) : tick s = s := if_pos hh

/-- A `LOAD` that does not follow a `RESET` is refused (R232). -/
theorem load_of_not_fresh {s : State} (hf : s.fresh = false) (bytes : List Byte) :
    load bytes s = .refused .loadNotAfterReset := if_pos hf

/-- `t` is `s` but for what `PRESENT` and the key commands write and the command port. -/
def State.EqUpToInputs (s t : State) : Prop :=
  t = { s with changed := t.changed, key := t.key, lastKey := t.lastKey, schedule := t.schedule, fresh := t.fresh }

/-- What a command but `RESET` can write in mode Halted: `TICK` and `STEP` write nothing there, and `LOAD` is
refused (D21). -/
theorem issue_of_halted {c : Command} {s t : State} (hc : c ≠ .reset) (hh : s.halted = true) (hf : s.fresh = false)
    (h : issue c s = .next t) : s.EqUpToInputs t := by
  cases c with
  | reset => exact absurd rfl hc
  | load bytes => cases (load_of_not_fresh hf bytes).symm.trans h
  | step => cases (stepCommand_of_halted (s := s.issued) ((State.mode_eq_halted _).mpr hh)).symm.trans h; rfl
  | tick => cases (congrArg Host.Outcome.next (tick_of_halted (s := s.issued) hh)).symm.trans h; rfl
  | keyDown | keyUp | present => cases h; rfl

theorem step_of_nil {s : State} (h : s.schedule = []) : step s = issue .step s := by
  unfold step; rw [h]

/-- What a step can write in mode Halted, unless it issues `RESET` (R260). -/
theorem resets_or_eqUpToInputs_of_halted {s t : State} (hh : s.halted = true) (hf : s.fresh = false)
    (h : step s = .next t) :
    (∃ rest, s.schedule = .reset :: rest) ∨ s.EqUpToInputs t := by
  cases hs : s.schedule with
  | nil => exact .inr (issue_of_halted (c := .step) nofun hh hf ((step_of_nil hs).symm.trans h))
  | cons c rest =>
    by_cases hc : c = .reset
    · exact .inl ⟨rest, by rw [hc]⟩
    · exact .inr (issue_of_halted (s := s.setPort rest s.fresh) hc hh hf ((step_of_cons hs).symm.trans h))

/-- Settles O15: none of the elements it names is among those a step can write in mode Halted. -/
theorem onlyResetLeavesHalted : Obligations.OnlyResetLeavesHalted := by
  intro s t hh hf h
  refine (resets_or_eqUpToInputs_of_halted hh hf h).imp_right fun heq => ?_
  rw [heq]
  exact ⟨hh, rfl, rfl, rfl, rfl, rfl, rfl, rfl, rfl, rfl, rfl⟩

end Sys2Proof.Machine
end

section
/-! Proofs for 41_control_flow.md: a call and the return after it (O19), the jumps (O20), `0NNN` (O21), the four
skips (O22), and the jump to itself that ends a program (O59). -/

namespace Sys2Proof.Machine

/-! The stack (R120, R123). -/

/-- Settles O19: the entry the return pops is the one the call pushed, at the call's `SP`. -/
theorem callThenReturn : Obligations.CallThenReturn := by
  intro nnn s hs
  obtain ⟨t, hcall, htsp, -, htstack, ht⟩ := (callPushesReturnAddress nnn s).1 hs
  obtain ⟨u, hret, husp, hupc, hu⟩ := (returnPopsStack t).1 (by omega)
  have hpc : u.pc = s.pc + 2 :=
    (hupc ⟨s.sp.val, hs⟩ htsp.symm).trans ((htstack _).trans (if_pos rfl))
  have hsp : u.sp = s.sp := Fin.ext (by omega)
  have hstack : u.stack = t.stack := by rw [hu]
  refine ⟨t, u, hcall, hret, ?_, fun j hj => ?_⟩
  · calc u = { t with pc := u.pc, sp := u.sp } := hu
      _ = { s with pc := u.pc, sp := u.sp, stack := t.stack } := by rw [ht]
      _ = { s with pc := s.pc + 2, stack := u.stack } := by rw [hpc, hsp, hstack]
  · rw [hstack, htstack j, if_neg (by omega)]

/-! The targets of the jumps as numbers (R83, R122, R124). -/

theorem addrOperand_toNat (nnn : Addr) : (addrOperand nnn).toNat = nnn.toNat :=
  BitVec.toNat_setWidth_of_le (by decide)

theorem extendByte_toNat (b : Byte) : (extendByte b).toNat = b.toNat := BitVec.toNat_setWidth_of_le (by decide)

/-- `V0 + NNN` fits in 16 bits, so the addition is the one of natural numbers (R25). -/
theorem extendByte_add_addrOperand_toNat (b : Byte) (nnn : Addr) :
    (extendByte b + addrOperand nnn).toNat = b.toNat + nnn.toNat := by
  have hb := b.isLt
  have hn := nnn.isLt
  rw [BitVec.toNat_add, extendByte_toNat, addrOperand_toNat]
  omega

/-- Settles O20: the jumps have no check, and commit their target alone. -/
theorem jumpsSetPc : Obligations.JumpsSetPc := fun nnn s =>
  ⟨⟨commit (.jp nnn) s, exec_of_errorOf_none rfl, addrOperand_toNat nnn, rfl⟩,
    ⟨commit (.jpV0 nnn) s, exec_of_errorOf_none rfl, extendByte_add_addrOperand_toNat (s.readV 0) nnn, rfl⟩⟩

/-- Settles O21: the check of `0NNN` always fails, and its word is `NNN` under class 0. -/
theorem machineRoutineIsFatal : Obligations.MachineRoutineIsFatal := by
  intro nnn s
  have hword : (encode (.sys nnn)).toNat = nnn.toNat := by simp [encode, encodeAddr_toNat]
  exact ⟨_, _, hword, exec_of_errorOf_some rfl, rfl, outputs_fatal_err s .unsupportedMachineRoutine _⟩

/-! The skips (R125 to R129). -/

/-- An instruction without a check that writes `PC` alone and skips when `p` holds. -/
theorem exec_of_skipTarget {i : Instr} {s : State} {taken : Bool} {p : Prop} [Decidable p] (he : errorOf i s = none)
    (heffect : effect i s = s) (htarget : target i s = skipTarget taken s) (hp : taken = true ↔ p) :
    exec i s = .next { s with pc := if p then s.pc + 4 else s.pc + 2 } := by
  rw [exec_of_errorOf_none he, commit, heffect, htarget, skipTarget, if_congr hp rfl rfl]
  rfl

/-- Settles O22: none of the four has a check, and each skips on its comparison. -/
theorem skipsCommitPc : Obligations.SkipsCommitPc := fun _ _ _ _ =>
  ⟨exec_of_skipTarget rfl rfl rfl beq_iff_eq, exec_of_skipTarget rfl rfl rfl bne_iff_ne,
    exec_of_skipTarget rfl rfl rfl beq_iff_eq, exec_of_skipTarget rfl rfl rfl bne_iff_ne⟩

/-! The end of a program (R122, R282). -/

/-- The program has ended where the word at `PC` is `0x1000 + PC` (R282). -/
theorem State.ended_iff {s : State} :
    s.ended = true ↔ s.mode = .running ∧ s.pc.toNat ≤ 0xFFE ∧ (wordAtPc s).toNat = 0x1000 + s.pc.toNat := by
  simp [State.ended, wordAtPc, wordOfBytes_toNat, and_assoc]

/-- An address that fits in 12 bits is the operand of a jump to it (R83). -/
theorem addrOperand_setWidth {p : Word} (h : p.toNat < 4096) : addrOperand (p.setWidth 12) = p := by
  apply BitVec.eq_of_toNat_eq
  rw [addrOperand_toNat, BitVec.toNat_setWidth, Nat.mod_eq_of_lt h]

/-- Such a word is the jump to `PC` (R86, R122). -/
theorem decode_eq_jp_of_toNat {op p : Word} (hp : p.toNat < 4096) (h : op.toNat = 0x1000 + p.toNat) :
    decode op = .ok (.jp (p.setWidth 12)) := by
  have hword : op = encode (.jp (p.setWidth 12)) := by
    apply BitVec.eq_of_toNat_eq
    rw [h, encode, encodeAddr_toNat, BitVec.toNat_setWidth, Nat.mod_eq_of_lt hp]
    rfl
  rw [hword]
  exact decodeOfEncode _ rfl

/-- Settles O59: the instruction at `PC` is the jump to `PC`, which puts into `PC` what it holds. -/
theorem endedIsFixedPoint : Obligations.EndedIsFixedPoint := by
  intro s rest hs hended
  obtain ⟨hm, hpc, hword⟩ := State.ended_iff.mp hended
  have hlt : s.pc.toNat < 4096 := by omega
  calc step s = exec (.jp (s.pc.setWidth 12)) (s.setPort rest false) :=
        stepRunsDecodedInstruction s rest _ hs hm hpc (decode_eq_jp_of_toNat hlt hword)
    _ = .next ((s.setPort rest false).setPc (addrOperand (s.pc.setWidth 12))) := exec_of_errorOf_none rfl
    _ = .next { s with schedule := rest, fresh := false } := by rw [addrOperand_setWidth hlt]; rfl

end Sys2Proof.Machine
end

section
/-! Proofs for 42_alu.md: the immediate forms (O23), the logic forms (O24), addition with carry (O25) and the two
subtractions (O26). -/

namespace Sys2Proof.Machine

/-! The forms without a flag (R141 to R146). -/

/-- An instruction that answers a result alone writes it and moves on (R105). -/
theorem completesWithRegs_of_writeV {i : Instr} {x : Nibble} {b : Byte} {s : State}
    (h : exec i s = complete (s.writeV x b)) : CompletesWithRegs i s fun r => if r = x then b else s.readV r :=
  ⟨_, h.trans (complete_eq _), fun r => State.readV_writeV s x r b, rfl⟩

/-- The sum of two bytes is the sum of their numbers modulo 256 (R142, R147). -/
theorem byte_add_eq_ofNat (a b : Byte) : a + b = BitVec.ofNat 8 ((a.toNat + b.toNat) % 256) := by
  apply BitVec.eq_of_toNat_eq
  rw [BitVec.toNat_add, BitVec.toNat_ofNat, Nat.mod_mod]

/-- Settles O23: the two immediate forms answer a result alone. -/
theorem immediateFormsWriteNoFlag : Obligations.ImmediateFormsWriteNoFlag := by
  intro x nn s
  rw [← byte_add_eq_ofNat]
  exact ⟨completesWithRegs_of_writeV rfl, completesWithRegs_of_writeV rfl⟩

/-- Settles O24: the four logic forms answer a result alone. -/
theorem logicFormsWriteNoFlag : Obligations.LogicFormsWriteNoFlag := fun _ _ _ =>
  ⟨completesWithRegs_of_writeV rfl, completesWithRegs_of_writeV rfl, completesWithRegs_of_writeV rfl,
    completesWithRegs_of_writeV rfl⟩

/-! Addition and subtraction with their flag (R147, R148, R150). -/

theorem flagByte_carryFlag (a b : Byte) : flagByte (carryFlag a b) = if a.toNat + b.toNat > 255 then 1 else 0 :=
  if_congr decide_eq_true_iff rfl rfl

theorem flagByte_noBorrowFlag (a b : Byte) : flagByte (noBorrowFlag a b) = if a.toNat ≥ b.toNat then 1 else 0 :=
  if_congr decide_eq_true_iff rfl rfl

/-- The difference of two bytes is the difference of their numbers as integers, modulo 256 (R148, R150). -/
theorem byte_sub_eq_ofInt (a b : Byte) : a - b = BitVec.ofInt 8 (((a.toNat : Int) - (b.toNat : Int)) % 256) := by
  apply BitVec.eq_of_toNat_eq
  have ha := a.isLt
  have hb := b.isLt
  rw [BitVec.toNat_sub, BitVec.toNat_ofInt]
  omega

/-- Settles O25: the sum and its carry are the result and the flag of `8XY4`. -/
theorem addSetsCarry : Obligations.AddSetsCarry := by
  intro x y s
  simp only [← byte_add_eq_ofNat, ← flagByte_carryFlag]
  exact completesWithRegs_of_completeWithFlag rfl

/-- Settles O26: each difference and its no-borrow are the result and the flag of its subtraction. -/
theorem subtractionsSetNoBorrow : Obligations.SubtractionsSetNoBorrow := by
  intro x y s
  simp only [← byte_sub_eq_ofInt, ← flagByte_noBorrowFlag]
  exact ⟨completesWithRegs_of_completeWithFlag rfl, completesWithRegs_of_completeWithFlag rfl⟩

end Sys2Proof.Machine
end

section
/-! Proofs for 43_index_memory.md: what `FX33` stores (O30), what `FX55` stores (O31) and `FX65` loads (O32), the
load after the store (O33), and the three forms that write `I` (O28). -/

namespace Sys2Proof.Machine

/-! The stores and the load (R173 to R175). -/

/-- The digits of a byte fit in a byte (R173). -/
theorem decimalDigits_map_toNat (b : Byte) :
    (decimalDigits b).map BitVec.toNat = [b.toNat / 100, b.toNat / 10 % 10, b.toNat % 10] := by
  have hb := b.isLt
  simp only [decimalDigits, List.map_cons, List.map_nil, BitVec.toNat_ofNat, List.cons.injEq, and_true]
  omega

/-- The stored digits read back as numbers (R173). -/
theorem readMem_decimalDigits {s : State} (hmem : Memory.wf s.font s.mem = true) (hi : s.i.toNat ≤ 4093) (b : Byte)
    {j : Nat} (hj : j < 3) : ((s.storeBytes s.i.toNat (decimalDigits b)).readMem (s.i.toNat + j)).toNat =
      [b.toNat / 100, b.toNat / 10 % 10, b.toNat % 10][j] := by
  rw [State.readMem_storeBytes_inside hmem (by rw [decimalDigits_length]; omega) hj]
  exact (List.getElem_map BitVec.toNat).symm.trans (List.getElem_of_eq (decimalDigits_map_toNat b) hj)

/-- Settles O30: the three digits are the bytes stored, and the frame is the one of every store. -/
theorem decimalDigitsAreStored : Obligations.DecimalDigitsAreStored := by
  intro x s hmem
  refine ⟨fun hi => ?_, fun hi => exec_of_errorOf_some (if_pos (by omega))⟩
  have hdigit {j : Nat} (hj : j < 3) := readMem_decimalDigits hmem hi (s.readV x) hj
  refine ⟨_, exec_ldB_of_le hi, hdigit (j := 0) (by decide), hdigit (j := 1) (by decide),
    hdigit (j := 2) (by decide), fun a ha => ?_, rfl⟩
  exact effect_readMem (i := .ldB x) (s := s) (a := a) (by simp only [storedBytes]; omega)

/-- Settles O31: the bytes stored are the register block, and the frame is the one of every store. -/
theorem registersAreStored : Obligations.RegistersAreStored := by
  intro x s hmem
  refine ⟨fun hi => ⟨_, exec_stRegs_of_le hi, fun j hj => ?_, fun a ha => ?_, rfl⟩,
    fun hi => exec_of_errorOf_some (if_pos hi)⟩
  · exact read_registerBlock hmem hi hj
  · exact effect_readMem (i := .stRegs x) (s := s) (a := a) (by simp only [storedBytes]; omega)

/-- Settles O32: the registers become the loaded block. -/
theorem registersAreLoaded : Obligations.RegistersAreLoaded := fun x s =>
  ⟨fun hi => ⟨_, exec_ldRegs_of_le hi, readV_setRegs_loadBlock s x, rfl⟩,
    fun hi => exec_of_errorOf_some (if_pos hi)⟩

/-- Settles O33: the load reads where the store wrote, since neither `I` nor memory has changed in between. -/
theorem storeThenLoadGivesRegistersBack : Obligations.StoreThenLoadGivesRegistersBack := by
  intro x s w hmem hi
  obtain ⟨t, hstore, hstored, -, ht⟩ := (registersAreStored x s hmem).1 hi
  have hti : t.i = s.i := by rw [ht]
  obtain ⟨u, hload, hloaded, hu⟩ := (registersAreLoaded x { t with v := w }).1 (by rwa [hti])
  refine ⟨t, u, hstore, hload, fun r hr => ?_, ?_, ?_⟩
  · calc u.readV r = t.readMem (t.i.toNat + r.toNat) := (hloaded r).trans (if_pos hr)
      _ = t.readMem (s.i.toNat + r.toNat) := by rw [hti]
      _ = s.readV r := hstored r hr
  · rw [hu]; exact hti
  · rw [hu]

/-! The forms that write `I` (R170 to R172). -/

/-- 5 times a byte fits in 16 bits (R172). -/
theorem five_mul_byte_toNat (b : Byte) : (BitVec.ofNat 16 (5 * b.toNat)).toNat = 5 * b.toNat :=
  (BitVec.toNat_ofNat ..).trans (Nat.mod_eq_of_lt (by have := b.isLt; omega))

/-- Settles O28: none of the three has a check, and each commits its value of `I` alone. -/
theorem indexForms : Obligations.IndexForms := fun nnn x s =>
  ⟨⟨_, exec_of_errorOf_none rfl, addrOperand_toNat nnn, rfl⟩,
    ⟨commit (.addI x) s, exec_of_errorOf_none rfl,
      (BitVec.toNat_add ..).trans (by rw [extendByte_toNat]), rfl⟩,
    ⟨_, exec_of_errorOf_none rfl, five_mul_byte_toNat (s.readV x), rfl⟩⟩

end Sys2Proof.Machine
end

section
/-! Proofs for 44_display.md: `00E0` (O35), the pixels and the collision flag of `DXYN` (O36), and the same sprite
drawn twice (O37). -/

namespace Sys2Proof.Machine

/-! A grid drawn on the display, pixel by pixel (R190, R193, R194). -/

theorem State.pixel_setDisplay (s : State) (g : Vector DispRow 32) (b : Bool) (c : Fin 64) (r : Fin 32) :
    (s.setDisplay g b).pixel c r = (g[r]).getMsbD c.val := rfl

/-- Settles O35: `00E0` has no check, and every row it commits is 0. -/
theorem clearDisplay : Obligations.ClearDisplay := by
  refine fun s => ⟨commit .cls s, exec_of_errorOf_none rfl, fun c r => ?_, rfl⟩
  rw [commit, effect, State.pixel_setPc, State.pixel_setDisplay]
  simp

/-- What `DXYN` commits, for any grid in place of the sprite's (R193, R194). -/
def State.drawGrid (s : State) (g : Vector DispRow 32) : State :=
  ((s.setDisplay (xorGrid s.px g) true).writeV 0xF (flagByte (collisionFlag s.px g))).setPc (s.pc + 2)

section
variable (s : State) (g : Vector DispRow 32)

/-- What drawing leaves alone. The state is taken apart first, so that `rfl` compares one field at a time and never two
whole displays. -/
theorem State.drawGrid_frame : s.drawGrid g =
    { s with px := (s.drawGrid g).px, changed := true, v := (s.drawGrid g).v, pc := s.pc + 2 } := by
  cases s; rfl

theorem State.drawGrid_i : (s.drawGrid g).i = s.i := by simp [State.drawGrid]

theorem State.readV_drawGrid (r : Nibble) :
    (s.drawGrid g).readV r = if r = 0xF then flagByte (collisionFlag s.px g) else s.readV r := by
  simp [State.drawGrid]

theorem State.pixel_drawGrid (c : Fin 64) (r : Fin 32) :
    (s.drawGrid g).pixel c r = (s.pixel c r ^^ (g[r]).getMsbD c.val) := by
  rw [State.drawGrid, State.pixel_setPc, State.pixel_writeV, State.pixel_setDisplay, xorGrid_row,
    BitVec.getMsbD_xor, State.pixel]

/-- The grid collides where one of its bits meets a set pixel (R194). -/
theorem collisionFlag_px_iff : collisionFlag s.px g = true ↔
    ∃ (c : Fin 64) (r : Fin 32), (g[r]).getMsbD c.val = true ∧ s.pixel c r = true := by
  simp only [collisionFlag_iff, row_and_ne_zero, State.pixel, exists_comm (α := Fin 64), and_comm]

theorem State.readV_F_drawGrid_eq_one : (s.drawGrid g).readV 0xF = 1 ↔
    ∃ (c : Fin 64) (r : Fin 32), (g[r]).getMsbD c.val = true ∧ s.pixel c r = true := by
  rw [State.readV_drawGrid, if_pos rfl, ← collisionFlag_px_iff]
  cases collisionFlag s.px g <;> decide

theorem State.readV_F_drawGrid_eq_zero : (s.drawGrid g).readV 0xF = 0 ↔
    ∀ (c : Fin 64) (r : Fin 32), (g[r]).getMsbD c.val = true → s.pixel c r = false := by
  have hclear : collisionFlag s.px g = false ↔
      ∀ (c : Fin 64) (r : Fin 32), (g[r]).getMsbD c.val = true → s.pixel c r = false := by
    rw [← Bool.not_eq_true, collisionFlag_px_iff]; simp
  rw [State.readV_drawGrid, if_pos rfl, ← hclear]
  cases collisionFlag s.px g <;> decide

end

/-! The grid of a sprite (R191, R192). -/

/-- The sprite that `DXYN` draws, as a grid. -/
def State.sprite (s : State) (x y n : Nibble) : Vector DispRow 32 :=
  spriteGrid s (originX s x) (originY s y) n.toNat

theorem State.sprite_pixel (s : State) (x y n : Nibble) (c : Fin 64) (r : Fin 32) :
    ((s.sprite x y n)[r]).getMsbD c.val = spriteBit s x y n c r := spriteGrid_pixel s x y n c r

theorem exec_drw_eq_drawGrid {x y n : Nibble} {s : State} (h : n.toNat = 0 ∨ s.i.toNat + n.toNat ≤ 4096) :
    exec (.drw x y n) s = .next (s.drawGrid (s.sprite x y n)) := exec_drw_of_le h

/-- Settles O36: in range the sprite's grid is drawn, out of range the check fails. -/
theorem drawXorsSprite : Obligations.DrawXorsSprite := by
  intro x y n s
  simp only [← State.sprite_pixel]
  refine ⟨fun h => ⟨_, exec_drw_eq_drawGrid h, State.pixel_drawGrid s _, ?_, ?_, fun r hr => ?_,
    State.drawGrid_frame s _⟩, fun h => exec_of_errorOf_some (if_pos h)⟩
  · exact (State.readV_F_drawGrid_eq_one s _).mpr
  · exact (State.readV_F_drawGrid_eq_zero s _).mpr
  · rw [State.readV_drawGrid, if_neg hr]

/-! The same sprite again (R193, R194). -/

/-- Of what a sprite is read from, drawing writes the registers alone. -/
theorem State.sprite_setRegs_drawGrid (s : State) (g : Vector DispRow 32) (x y n : Nibble) :
    ((s.drawGrid g).setRegs s.v).sprite x y n = s.sprite x y n := by
  cases s; rfl

/-- With the registers from before the first draw, the second draws the same grid. -/
theorem exec_drw_setRegs_drawGrid {x y n : Nibble} {s : State} (g : Vector DispRow 32)
    (h : n.toNat = 0 ∨ s.i.toNat + n.toNat ≤ 4096) : exec (.drw x y n) ((s.drawGrid g).setRegs s.v) =
      .next (((s.drawGrid g).setRegs s.v).drawGrid (s.sprite x y n)) := by
  rw [exec_drw_eq_drawGrid, State.sprite_setRegs_drawGrid]
  rwa [State.setRegs_i, State.drawGrid_i]

/-- Settles O37: the second XOR with a sprite bit undoes the first, and under a set bit the first turned a clear
pixel into the set one that the second collides with. -/
theorem drawTwiceRestoresDisplay : Obligations.DrawTwiceRestoresDisplay := by
  intro x y n s h
  simp only [← State.sprite_pixel]
  refine ⟨_, _, exec_drw_eq_drawGrid h, exec_drw_setRegs_drawGrid _ h, fun c r => ?_, ?_⟩
  · rw [State.pixel_drawGrid, State.pixel_setRegs, State.pixel_drawGrid, Bool.xor_assoc, Bool.xor_self,
      Bool.xor_false]
  · rw [State.readV_F_drawGrid_eq_one]
    refine exists_congr fun c => exists_congr fun r => and_congr_right fun hbit => ?_
    rw [State.pixel_setRegs, State.pixel_drawGrid, hbit, Bool.xor_true, Bool.not_eq_true']

end Sys2Proof.Machine
end

section
/-! Proofs for 45_input_timers_random.md: how the key wait ends (O16) and begins (O39), the key skips (O38), and the
timers (O40). -/

namespace Sys2Proof.Machine

/-! The key wait under a `STEP` (R213, R218). -/

theorem keyScan_pc (s : State) : (keyScan s).pc = s.pc := by
  cases h : lowestKey s with
  | none => rw [keyScan_of_none h]
  | some k => rw [keyScan_of_some h]; rfl

/-- The scan ends the wait when some key is down, and else it goes on. -/
theorem keyScan_mode {s : State} (hm : s.mode = .awaitingKey) :
    (keyScan s).mode = .running ∧ (∃ k : Key, s.key[k] = true) ∨
      (keyScan s).mode = .awaitingKey ∧ ∀ k : Key, s.key[k] = false := by
  cases h : lowestKey s with
  | none => rw [keyScan_of_none h]; exact .inr ⟨hm, lowestKey_eq_none.mp h⟩
  | some k =>
    obtain ⟨hhalted, -⟩ := (State.mode_eq_awaitingKey s).mp hm
    rw [keyScan_of_some h]
    exact .inl ⟨State.mode_running _ hhalted rfl, k, (lowestKey_eq_some.mp h).1⟩

/-! The key wait under the other commands (R218, R232 to R237). -/

/-- `t` has the `PC` and the mode of `s`. -/
def State.SamePcAndMode (s t : State) : Prop := t.pc = s.pc ∧ t.mode = s.mode

theorem tick_samePcAndMode (s : State) : s.SamePcAndMode (tick s) := by
  unfold tick
  split <;> exact ⟨rfl, rfl⟩

theorem load_samePcAndMode (bytes : List Byte) (s : State) : NextSatisfies s.SamePcAndMode (load bytes s) :=
  nextSatisfies_ite (nextSatisfies_refused _)
    (nextSatisfies_ite (nextSatisfies_next.mpr ⟨rfl, rfl⟩) (nextSatisfies_refused _))

/-- Only `RESET` and `STEP` write `PC` or the mode. -/
theorem issue_samePcAndMode {c : Command} (hreset : c ≠ .reset) (hstep : c ≠ .step) (s : State) :
    NextSatisfies s.SamePcAndMode (issue c s) := by
  cases c with
  | reset => exact absurd rfl hreset
  | step => exact absurd rfl hstep
  | load bytes => exact load_samePcAndMode bytes s
  | tick => exact nextSatisfies_next.mpr (tick_samePcAndMode s.issued)
  | keyDown | keyUp | present => exact nextSatisfies_next.mpr ⟨rfl, rfl⟩

/-- The next command is `STEP` unless the schedule begins with another one (log 5). -/
theorem State.issuesStep_or_cons (s : State) :
    (∃ rest, s.issuesStep rest) ∨ ∃ c rest, s.schedule = c :: rest ∧ c ≠ .step := by
  cases h : s.schedule with
  | nil => exact .inl ⟨[], .inl ⟨h, rfl⟩⟩
  | cons c rest =>
    by_cases hc : c = .step
    · exact .inl ⟨rest, .inr (by rw [h, hc])⟩
    · exact .inr ⟨c, rest, rfl, hc⟩

theorem State.not_issuesStep_of_cons {s : State} {c : Command} {rest : List Command} (h : s.schedule = c :: rest)
    (hc : c ≠ .step) : ¬∃ rest, s.issuesStep rest := by
  simp [State.issuesStep, h, hc]

/-- Settles O16: a `STEP` is the key scan, `RESET` gives the reset state, and no other command writes `PC` or the
mode. -/
theorem keyWaitEndsOnlyByKeyOrReset : Obligations.KeyWaitEndsOnlyByKeyOrReset := by
  intro s t hm h
  obtain ⟨rest, hs⟩ | ⟨c, rest, hs, hstep⟩ := s.issuesStep_or_cons
  · cases (step_of_awaitingKey hs hm).symm.trans h
    have hpc := keyScan_pc (s.setPort rest false)
    obtain ⟨hmode, hkey⟩ | ⟨hmode, hnone⟩ := keyScan_mode (s := s.setPort rest false) hm
    · exact .inr ⟨hpc, iff_of_true hmode ⟨⟨rest, hs⟩, hkey⟩, .inl hmode⟩
    · refine .inr ⟨hpc, iff_of_false (by simp [hmode]) ?_, .inr hmode⟩
      rintro ⟨-, k, hk⟩
      cases hk.symm.trans (hnone k)
  · by_cases hreset : c = .reset
    · subst hreset
      cases (step_of_reset hs).symm.trans h
      exact .inl ⟨rest, hs, State.mode_running _ rfl rfl⟩
    · obtain ⟨hpc, hmode⟩ :=
        issue_samePcAndMode hreset hstep (s.setPort rest s.fresh) t ((step_of_cons hs).symm.trans h)
      have hwait : t.mode = .awaitingKey := hmode.trans hm
      exact .inr ⟨hpc, iff_of_false (by simp [hwait]) fun hend => State.not_issuesStep_of_cons hs hstep hend.1,
        .inr hwait⟩

/-! The key instructions (R210 to R212). -/

/-- Settles O39: `FX0A` has no check, and commits the wait. -/
theorem keyWaitIsEntered : Obligations.KeyWaitIsEntered := fun x s hhalted =>
  ⟨commit (.ldVxK x) s, exec_of_errorOf_none rfl, (State.mode_eq_awaitingKey _).mpr ⟨hhalted, rfl⟩, rfl⟩

/-- A register that holds the number of a key selects that key (R210, R211). -/
theorem keyOperand_eq_some {b : Byte} {k : Key} (h : b.toNat = k.val) : keyOperand b = some k := by
  rw [keyOperand_of_lt (h ▸ k.isLt)]
  exact congrArg some (Fin.ext h)

/-- Settles O38: for a key's number the two skips read that key, and above 15 their check fails. -/
theorem keySkips : Obligations.KeySkips := by
  refine fun x s => ⟨fun k hk => ?_, fun hbig => ?_⟩
  · have hcheck : ¬(s.readV x).toNat ≥ 16 := by omega
    have hoperand := keyOperand_eq_some hk
    refine ⟨exec_of_skipTarget (if_neg hcheck) rfl rfl ?_, exec_of_skipTarget (if_neg hcheck) rfl rfl ?_⟩
    · rw [hoperand, Option.any_some]
    · rw [hoperand, Option.any_some, Bool.not_eq_true']
  · exact ⟨exec_of_errorOf_some (if_pos hbig), exec_of_errorOf_some (if_pos hbig)⟩

/-! The timers (R214 to R216). -/

/-- The output `tone` is on while `ST` is not 0 (R40). -/
theorem outputs_tone (s : State) : s.outputs.tone = true ↔ s.st ≠ 0 := bne_iff_ne

/-- Settles O40: none of the three has a check, `FX07` answers a result alone, and the tone follows the `ST` that
`FX18` commits. -/
theorem timerAccess : Obligations.TimerAccess := fun x s =>
  ⟨completesWithRegs_of_writeV rfl, exec_of_errorOf_none rfl,
    commit (.ldStVx x) s, exec_of_errorOf_none rfl, outputs_tone _, rfl⟩

end Sys2Proof.Machine
end

section
/-! Proofs for 46_host_operations.md: which steps answer a next state (O14), `TICK` (O42), the key commands (O43) and
`PRESENT` (O44). -/

namespace Sys2Proof.Machine

/-! The refusals (R230, R232). -/

/-- A `LOAD` of more than 3584 bytes is refused, even directly after `RESET` (R232). -/
theorem load_of_too_long {s : State} {bytes : List Byte} (hf : s.fresh = true) (hl : bytes.length > 3584) :
    load bytes s = .refused .loadTooLong := by
  have hmax : ¬bytes.length ≤ Config.progMax := Nat.not_le.mpr hl
  simp [load, hf, hmax]

/-- No `STEP` is refused: an error is a next state too (R256). -/
theorem stepCommand_hasNext (s : State) : ∃ t : State, stepCommand s = .next t := by
  cases hm : s.mode with
  | halted => exact ⟨_, stepCommand_of_halted hm⟩
  | awaitingKey => exact ⟨_, stepCommand_of_awaitingKey hm⟩
  | running =>
    rw [stepCommand_of_running hm]
    obtain ⟨e, op, -, hrun, -⟩ | ⟨i, -, hrun, -⟩ := runInstruction_cases s
    · exact ⟨_, hrun⟩
    · exact ⟨_, hrun⟩

/-- No command but `LOAD` is refused (R230). -/
theorem issue_hasNext {c : Command} (hc : ∀ bytes, c ≠ .load bytes) (s : State) : ∃ t : State, issue c s = .next t := by
  cases c with
  | load bytes => exact absurd rfl (hc bytes)
  | step => exact stepCommand_hasNext s.issued
  | reset | tick | keyDown | keyUp | present => exact ⟨_, rfl⟩

/-- Settles O14: a command but `LOAD` has a next state, and a `LOAD` is answered by `fresh` and the number of its
bytes. -/
theorem onlyLoadIsRefused : Obligations.OnlyLoadIsRefused := by
  intro s
  cases hs : s.schedule with
  | nil =>
    rw [step_of_nil hs]
    exact .inl ⟨issue_hasNext (c := .step) nofun s, nofun⟩
  | cons c rest =>
    rw [step_of_cons hs]
    by_cases hc : ∃ bytes, c = .load bytes
    · obtain ⟨bytes, rfl⟩ := hc
      cases hf : s.fresh with
      | false => exact .inr ⟨bytes, rest, rfl, .inl ⟨rfl, load_of_not_fresh rfl bytes⟩⟩
      | true =>
        rcases Nat.lt_or_ge 3584 bytes.length with hl | hl
        · exact .inr ⟨bytes, rest, rfl, .inr ⟨rfl, hl, load_of_too_long rfl hl⟩⟩
        · refine .inl ⟨⟨_, load_of_fresh rfl hl⟩, fun _ _ h => ?_⟩
          cases h
          exact ⟨rfl, hl⟩
    · have hload : ∀ bytes, c ≠ .load bytes := not_exists.mp hc
      exact .inl ⟨issue_hasNext hload _, fun bytes _ h => absurd (List.cons.inj h).1 (hload bytes)⟩

/-! The commands that change a part of the state (R234 to R237). -/

theorem tick_of_not_halted {s : State} (hh : ¬s.halted = true) :
    tick s = (s.setDt (countDown s.dt)).setSt (countDown s.st) := if_neg hh

/-- Settles O42: halted, `TICK` changes nothing, and else each timer counts down by itself. -/
theorem tickCountsDown : Obligations.TickCountsDown := by
  intro s rest hs
  have hstep : step s = .next (tick (s.setPort rest false)) := step_of_cons hs
  by_cases hh : s.halted = true
  · rw [tick_of_halted (s := s.setPort rest false) hh] at hstep
    exact ⟨_, hstep, (if_pos hh).symm, (if_pos hh).symm, rfl⟩
  · rw [tick_of_not_halted (s := s.setPort rest false) hh] at hstep
    refine ⟨_, hstep, ?_, ?_, rfl⟩
    · exact (countDown_toNat s.dt).trans (if_neg hh).symm
    · exact (countDown_toNat s.st).trans (if_neg hh).symm

/-- One key written, and the others left as they are (R34). -/
theorem getElem_set_key (v : Vector Bool 16) (k j : Key) (b : Bool) :
    (v.set k.val b)[j] = if j = k then b else v[j] := by
  have hiff : k.val = j.val ↔ j = k := by rw [Fin.val_inj, eq_comm]
  exact (Vector.getElem_set _ _).trans (if_congr hiff rfl rfl)

/-- Settles O43: each of the two writes one entry of `key`, and `KEY_DOWN` writes `last_key` with it. -/
theorem keyCommands : Obligations.KeyCommands := fun k s _ =>
  ⟨fun hs => ⟨_, step_of_cons hs, fun j => getElem_set_key s.key k j true, rfl⟩,
    fun hs => ⟨_, step_of_cons hs, fun j => getElem_set_key s.key k j false, rfl⟩⟩

/-- Settles O44: `PRESENT` rewrites the display with its own pixels and clears the flag. -/
theorem presentClearsChanged : Obligations.PresentClearsChanged := fun _ _ hs => step_of_cons hs

end Sys2Proof.Machine
end
